-- ==== Sys2Proof/Word.lean ====
section
/-! DEFINITION. The two widths of the core: every register value and memory byte is 8 bits, every address and
the program counter are 16 bits (00_scope.md R6, R10). -/

namespace Sys2Proof

/-- An unsigned 8-bit value, 0 to 255 (R10). -/
abbrev Byte := BitVec 8

/-- An unsigned 16-bit value, 0 to 65535: an address or the program counter (R10). -/
abbrev Word := BitVec 16

end Sys2Proof
end

