-- ==== Sys2Proof/Config.lean ====
section
/-! DEFINITION. The parameters of 00_scope.md R7 that a step or a host operation reads. `initial_memory` and
`initial_registers`, the other two of R7, are arguments of construction (Machine/HostOps.lean). No value of the
spec is left undefined, so there is no opaque free value: every parameter is carried as plain data and a
statement holds for every setting of it (log entry 3). -/

namespace Sys2Proof

/-- `opcode_profile`: which byte values populate the dispatch table (R5, R52, D1). -/
inductive OpcodeProfile where
  /-- the 33 byte values of R53 -/
  | named
  /-- R53's 33 and R54's 87 -/
  | extended
  deriving DecidableEq, Repr

/-- `indirect_y_pointer_wrap`: where IndirectY reads its pointer's high byte when the operand byte is 0xFF
(R69, D8). -/
inductive PointerWrap where
  /-- inside page 0: from 0x0000 -/
  | page0
  /-- the plain 16-bit read: from 0x0100 -/
  | linear
  deriving DecidableEq, Repr

/-- The open parameters of R7 that outlive construction. -/
structure Config where
  opcodeProfile        : OpcodeProfile
  /-- `branch_offset_signed` (R101, D3) -/
  branchOffsetSigned   : Bool
  indirectYPointerWrap : PointerWrap
  /-- `reset_capable`: whether `load_program` writes the reset vector (R140, R141, D13) -/
  resetCapable         : Bool
  deriving DecidableEq, Repr

end Sys2Proof
end

