-- ==== Sys2Proof/Syntax.lean ====
section
/-! DEFINITION. The instruction set: one constructor per row of spec/opcode_table.json (30_encoding.md R53, R54),
120 in all, in the table's order. A constructor carries the operand its format gives it (R49, R50): nothing for
F1, the byte `b` for F2 (named `v` where it is an immediate value), the 16-bit word `w` for F3. -/

namespace Sys2Proof

/-- One constructor per populated byte value. Each group's comment names the mnemonic's rule. -/
inductive Instr where
  -- LDA: load A (R74)
  | ldaImmediate (v : Byte)
  | ldaZeroPage (b : Byte)
  | ldaZeroPageX (b : Byte)
  | ldaAbsolute (w : Word)
  | ldaAbsoluteX (w : Word)
  | ldaAbsoluteY (w : Word)
  | ldaIndirectX (b : Byte)
  | ldaIndirectY (b : Byte)
  -- AND: A and memory (R85)
  | andImmediate (v : Byte)
  | andZeroPage (b : Byte)
  | andZeroPageX (b : Byte)
  | andAbsolute (w : Word)
  | andAbsoluteX (w : Word)
  | andAbsoluteY (w : Word)
  | andIndirectX (b : Byte)
  | andIndirectY (b : Byte)
  -- ORA: A or memory (R86)
  | oraImmediate (v : Byte)
  | oraZeroPage (b : Byte)
  | oraZeroPageX (b : Byte)
  | oraAbsolute (w : Word)
  | oraAbsoluteX (w : Word)
  | oraAbsoluteY (w : Word)
  | oraIndirectX (b : Byte)
  | oraIndirectY (b : Byte)
  -- ASL: shift left (R88)
  | aslAccumulator
  | aslZeroPage (b : Byte)
  | aslZeroPageX (b : Byte)
  | aslAbsolute (w : Word)
  | aslAbsoluteX (w : Word)
  -- TAX: A to X (R75)
  | tax
  -- INX: increment X (R92)
  | inx
  -- BCC: branch if carry clear (R102)
  | bcc (b : Byte)
  -- BRK: end of program (R109)
  | brk
  -- LDX: load X (R76)
  | ldxImmediate (v : Byte)
  | ldxZeroPage (b : Byte)
  | ldxZeroPageY (b : Byte)
  | ldxAbsolute (w : Word)
  | ldxAbsoluteY (w : Word)
  -- LDY: load Y (R77)
  | ldyImmediate (v : Byte)
  | ldyZeroPage (b : Byte)
  | ldyZeroPageX (b : Byte)
  | ldyAbsolute (w : Word)
  | ldyAbsoluteX (w : Word)
  -- STA: store A (R78)
  | staZeroPage (b : Byte)
  | staZeroPageX (b : Byte)
  | staAbsolute (w : Word)
  | staAbsoluteX (w : Word)
  | staAbsoluteY (w : Word)
  | staIndirectX (b : Byte)
  | staIndirectY (b : Byte)
  -- STX: store X (R79)
  | stxZeroPage (b : Byte)
  | stxZeroPageY (b : Byte)
  | stxAbsolute (w : Word)
  -- STY: store Y (R80)
  | styZeroPage (b : Byte)
  | styZeroPageX (b : Byte)
  | styAbsolute (w : Word)
  -- TAY: A to Y (R81)
  | tay
  -- TXA: X to A (R82)
  | txa
  -- TYA: Y to A (R83)
  | tya
  -- EOR: A xor memory (R87)
  | eorImmediate (v : Byte)
  | eorZeroPage (b : Byte)
  | eorZeroPageX (b : Byte)
  | eorAbsolute (w : Word)
  | eorAbsoluteX (w : Word)
  | eorAbsoluteY (w : Word)
  | eorIndirectX (b : Byte)
  | eorIndirectY (b : Byte)
  -- LSR: shift right (R89)
  | lsrAccumulator
  | lsrZeroPage (b : Byte)
  | lsrZeroPageX (b : Byte)
  | lsrAbsolute (w : Word)
  | lsrAbsoluteX (w : Word)
  -- ROL: rotate left through carry (R90)
  | rolAccumulator
  | rolZeroPage (b : Byte)
  | rolZeroPageX (b : Byte)
  | rolAbsolute (w : Word)
  | rolAbsoluteX (w : Word)
  -- ROR: rotate right through carry (R91)
  | rorAccumulator
  | rorZeroPage (b : Byte)
  | rorZeroPageX (b : Byte)
  | rorAbsolute (w : Word)
  | rorAbsoluteX (w : Word)
  -- INY: increment Y (R93)
  | iny
  -- DEX: decrement X (R94)
  | dex
  -- DEY: decrement Y (R95)
  | dey
  -- INC: increment memory (R96)
  | incZeroPage (b : Byte)
  | incZeroPageX (b : Byte)
  | incAbsolute (w : Word)
  | incAbsoluteX (w : Word)
  -- DEC: decrement memory (R97)
  | decZeroPage (b : Byte)
  | decZeroPageX (b : Byte)
  | decAbsolute (w : Word)
  | decAbsoluteX (w : Word)
  -- CMP: compare with A (R98)
  | cmpImmediate (v : Byte)
  | cmpZeroPage (b : Byte)
  | cmpZeroPageX (b : Byte)
  | cmpAbsolute (w : Word)
  | cmpAbsoluteX (w : Word)
  | cmpAbsoluteY (w : Word)
  | cmpIndirectX (b : Byte)
  | cmpIndirectY (b : Byte)
  -- CPX: compare with X (R99)
  | cpxImmediate (v : Byte)
  | cpxZeroPage (b : Byte)
  | cpxAbsolute (w : Word)
  -- CPY: compare with Y (R100)
  | cpyImmediate (v : Byte)
  | cpyZeroPage (b : Byte)
  | cpyAbsolute (w : Word)
  -- BCS: branch if carry set (R103)
  | bcs (b : Byte)
  -- BEQ: branch if Z set (R104)
  | beq (b : Byte)
  -- BNE: branch if Z clear (R105)
  | bne (b : Byte)
  -- BMI: branch if N set (R106)
  | bmi (b : Byte)
  -- BPL: branch if N clear (R107)
  | bpl (b : Byte)
  -- JMP: jump, absolute (R108)
  | jmp (w : Word)
  -- NOP: no operation (R110)
  | nop
  -- CLC: clear carry (R111)
  | clc
  -- SEC: set carry (R112)
  | sec
  -- CLI: clear interrupt disable (R113)
  | cli
  -- SEI: set interrupt disable (R114)
  | sei
  -- CLD: clear decimal mode (R115)
  | cld
  -- SED: set decimal mode (R116)
  | sed
  deriving DecidableEq, Repr

end Sys2Proof
end

