-- ==== Sys2Proof/Machine/Descriptor.lean ====
section
/-! DEFINITION. What the dispatch table says of an instruction (30_encoding.md R49 to R52): the closed set of
addressing modes, the mnemonics, the formats, and the view of an instruction as a mnemonic with an operand. -/

namespace Sys2Proof

/-- The source's closed AddressMode set (R50; conflict C6: no relative and no absolute indirect mode). -/
inductive AddressMode where
  | accumulator | implied | immediate | zeroPage | zeroPageX | zeroPageY
  | absolute | absoluteX | absoluteY | indirectX | indirectY | unresolved
  deriving DecidableEq, Repr

/-- The 41 mnemonics of the table. -/
inductive Mnemonic where
  | lda | and | ora | asl | tax | inx | bcc | brk | ldx | ldy
  | sta | stx | sty | tay | txa | tya | eor | lsr | rol | ror
  | iny | dex | dey | inc | dec | cmp | cpx | cpy | bcs | beq
  | bne | bmi | bpl | jmp | nop | clc | sec | cli | sei | cld
  | sed
  deriving DecidableEq, Repr

/-- The three instruction formats of R49. -/
inductive Format where
  | f1 | f2 | f3
  deriving DecidableEq, Repr

/-- The bytes an instruction of the format takes (R49). -/
def Format.length : Format → Nat
  | .f1 => 1
  | .f2 => 2
  | .f3 => 3

/-- R50: the format that goes with a mode; `unresolved` has none. -/
def AddressMode.format : AddressMode → Option Format
  | .accumulator | .implied => some .f1
  | .immediate | .zeroPage | .zeroPageX | .zeroPageY | .indirectX | .indirectY => some .f2
  | .absolute | .absoluteX | .absoluteY => some .f3
  | .unresolved => none

/-- The instruction length `bytes` of a mode (R50); 0 for `unresolved`, which no descriptor uses. -/
def AddressMode.bytes (m : AddressMode) : Nat :=
  match m.format with
  | some f => f.length
  | none => 0

/-- An addressing mode with the operand bytes it takes (R50, R51). The three modes at the ends "carry no memory
address" (R70). -/
inductive Operand where
  | accumulator
  | implied
  | immediate (v : Byte)
  | zeroPage (b : Byte)
  | zeroPageX (b : Byte)
  | zeroPageY (b : Byte)
  | absolute (w : Word)
  | absoluteX (w : Word)
  | absoluteY (w : Word)
  | indirectX (b : Byte)
  | indirectY (b : Byte)
  | unresolved
  deriving DecidableEq, Repr

def Operand.mode : Operand → AddressMode
  | .accumulator => .accumulator
  | .implied => .implied
  | .immediate _ => .immediate
  | .zeroPage _ => .zeroPage
  | .zeroPageX _ => .zeroPageX
  | .zeroPageY _ => .zeroPageY
  | .absolute _ => .absolute
  | .absoluteX _ => .absoluteX
  | .absoluteY _ => .absoluteY
  | .indirectX _ => .indirectX
  | .indirectY _ => .indirectY
  | .unresolved => .unresolved

/-- The `bytes` of the operand's mode. -/
def Operand.bytes (o : Operand) : Nat := o.mode.bytes

/-- A descriptor of the dispatch table (R52), less its handler, which Decode.lean's rows carry. `cycles` is
metadata that no rule reads (R146). -/
structure Descriptor where
  mnemonic : Mnemonic
  mode     : AddressMode
  bytes    : Nat
  cycles   : Nat
  deriving DecidableEq, Repr

/-- The mnemonic of an instruction: its row's second column in R53 or R54. -/
def Instr.mnemonic : Instr → Mnemonic
  | .ldaImmediate _ | .ldaZeroPage _ | .ldaZeroPageX _ | .ldaAbsolute _
  | .ldaAbsoluteX _ | .ldaAbsoluteY _ | .ldaIndirectX _ | .ldaIndirectY _ => .lda
  | .andImmediate _ | .andZeroPage _ | .andZeroPageX _ | .andAbsolute _
  | .andAbsoluteX _ | .andAbsoluteY _ | .andIndirectX _ | .andIndirectY _ => .and
  | .oraImmediate _ | .oraZeroPage _ | .oraZeroPageX _ | .oraAbsolute _
  | .oraAbsoluteX _ | .oraAbsoluteY _ | .oraIndirectX _ | .oraIndirectY _ => .ora
  | .aslAccumulator | .aslZeroPage _ | .aslZeroPageX _ | .aslAbsolute _
  | .aslAbsoluteX _ => .asl
  | .tax => .tax
  | .inx => .inx
  | .bcc _ => .bcc
  | .brk => .brk
  | .ldxImmediate _ | .ldxZeroPage _ | .ldxZeroPageY _ | .ldxAbsolute _
  | .ldxAbsoluteY _ => .ldx
  | .ldyImmediate _ | .ldyZeroPage _ | .ldyZeroPageX _ | .ldyAbsolute _
  | .ldyAbsoluteX _ => .ldy
  | .staZeroPage _ | .staZeroPageX _ | .staAbsolute _ | .staAbsoluteX _
  | .staAbsoluteY _ | .staIndirectX _ | .staIndirectY _ => .sta
  | .stxZeroPage _ | .stxZeroPageY _ | .stxAbsolute _ => .stx
  | .styZeroPage _ | .styZeroPageX _ | .styAbsolute _ => .sty
  | .tay => .tay
  | .txa => .txa
  | .tya => .tya
  | .eorImmediate _ | .eorZeroPage _ | .eorZeroPageX _ | .eorAbsolute _
  | .eorAbsoluteX _ | .eorAbsoluteY _ | .eorIndirectX _ | .eorIndirectY _ => .eor
  | .lsrAccumulator | .lsrZeroPage _ | .lsrZeroPageX _ | .lsrAbsolute _
  | .lsrAbsoluteX _ => .lsr
  | .rolAccumulator | .rolZeroPage _ | .rolZeroPageX _ | .rolAbsolute _
  | .rolAbsoluteX _ => .rol
  | .rorAccumulator | .rorZeroPage _ | .rorZeroPageX _ | .rorAbsolute _
  | .rorAbsoluteX _ => .ror
  | .iny => .iny
  | .dex => .dex
  | .dey => .dey
  | .incZeroPage _ | .incZeroPageX _ | .incAbsolute _ | .incAbsoluteX _ => .inc
  | .decZeroPage _ | .decZeroPageX _ | .decAbsolute _ | .decAbsoluteX _ => .dec
  | .cmpImmediate _ | .cmpZeroPage _ | .cmpZeroPageX _ | .cmpAbsolute _
  | .cmpAbsoluteX _ | .cmpAbsoluteY _ | .cmpIndirectX _ | .cmpIndirectY _ => .cmp
  | .cpxImmediate _ | .cpxZeroPage _ | .cpxAbsolute _ => .cpx
  | .cpyImmediate _ | .cpyZeroPage _ | .cpyAbsolute _ => .cpy
  | .bcs _ => .bcs
  | .beq _ => .beq
  | .bne _ => .bne
  | .bmi _ => .bmi
  | .bpl _ => .bpl
  | .jmp _ => .jmp
  | .nop => .nop
  | .clc => .clc
  | .sec => .sec
  | .cli => .cli
  | .sei => .sei
  | .cld => .cld
  | .sed => .sed

/-- The operand of an instruction: its row's mode in R53 or R54, with the operand bytes it carries. -/
def Instr.operand : Instr → Operand
  | .ldaImmediate v => .immediate v
  | .ldaZeroPage b => .zeroPage b
  | .ldaZeroPageX b => .zeroPageX b
  | .ldaAbsolute w => .absolute w
  | .ldaAbsoluteX w => .absoluteX w
  | .ldaAbsoluteY w => .absoluteY w
  | .ldaIndirectX b => .indirectX b
  | .ldaIndirectY b => .indirectY b
  | .andImmediate v => .immediate v
  | .andZeroPage b => .zeroPage b
  | .andZeroPageX b => .zeroPageX b
  | .andAbsolute w => .absolute w
  | .andAbsoluteX w => .absoluteX w
  | .andAbsoluteY w => .absoluteY w
  | .andIndirectX b => .indirectX b
  | .andIndirectY b => .indirectY b
  | .oraImmediate v => .immediate v
  | .oraZeroPage b => .zeroPage b
  | .oraZeroPageX b => .zeroPageX b
  | .oraAbsolute w => .absolute w
  | .oraAbsoluteX w => .absoluteX w
  | .oraAbsoluteY w => .absoluteY w
  | .oraIndirectX b => .indirectX b
  | .oraIndirectY b => .indirectY b
  | .aslAccumulator => .accumulator
  | .aslZeroPage b => .zeroPage b
  | .aslZeroPageX b => .zeroPageX b
  | .aslAbsolute w => .absolute w
  | .aslAbsoluteX w => .absoluteX w
  | .tax => .implied
  | .inx => .implied
  | .bcc b => .immediate b
  | .brk => .implied
  | .ldxImmediate v => .immediate v
  | .ldxZeroPage b => .zeroPage b
  | .ldxZeroPageY b => .zeroPageY b
  | .ldxAbsolute w => .absolute w
  | .ldxAbsoluteY w => .absoluteY w
  | .ldyImmediate v => .immediate v
  | .ldyZeroPage b => .zeroPage b
  | .ldyZeroPageX b => .zeroPageX b
  | .ldyAbsolute w => .absolute w
  | .ldyAbsoluteX w => .absoluteX w
  | .staZeroPage b => .zeroPage b
  | .staZeroPageX b => .zeroPageX b
  | .staAbsolute w => .absolute w
  | .staAbsoluteX w => .absoluteX w
  | .staAbsoluteY w => .absoluteY w
  | .staIndirectX b => .indirectX b
  | .staIndirectY b => .indirectY b
  | .stxZeroPage b => .zeroPage b
  | .stxZeroPageY b => .zeroPageY b
  | .stxAbsolute w => .absolute w
  | .styZeroPage b => .zeroPage b
  | .styZeroPageX b => .zeroPageX b
  | .styAbsolute w => .absolute w
  | .tay => .implied
  | .txa => .implied
  | .tya => .implied
  | .eorImmediate v => .immediate v
  | .eorZeroPage b => .zeroPage b
  | .eorZeroPageX b => .zeroPageX b
  | .eorAbsolute w => .absolute w
  | .eorAbsoluteX w => .absoluteX w
  | .eorAbsoluteY w => .absoluteY w
  | .eorIndirectX b => .indirectX b
  | .eorIndirectY b => .indirectY b
  | .lsrAccumulator => .accumulator
  | .lsrZeroPage b => .zeroPage b
  | .lsrZeroPageX b => .zeroPageX b
  | .lsrAbsolute w => .absolute w
  | .lsrAbsoluteX w => .absoluteX w
  | .rolAccumulator => .accumulator
  | .rolZeroPage b => .zeroPage b
  | .rolZeroPageX b => .zeroPageX b
  | .rolAbsolute w => .absolute w
  | .rolAbsoluteX w => .absoluteX w
  | .rorAccumulator => .accumulator
  | .rorZeroPage b => .zeroPage b
  | .rorZeroPageX b => .zeroPageX b
  | .rorAbsolute w => .absolute w
  | .rorAbsoluteX w => .absoluteX w
  | .iny => .implied
  | .dex => .implied
  | .dey => .implied
  | .incZeroPage b => .zeroPage b
  | .incZeroPageX b => .zeroPageX b
  | .incAbsolute w => .absolute w
  | .incAbsoluteX w => .absoluteX w
  | .decZeroPage b => .zeroPage b
  | .decZeroPageX b => .zeroPageX b
  | .decAbsolute w => .absolute w
  | .decAbsoluteX w => .absoluteX w
  | .cmpImmediate v => .immediate v
  | .cmpZeroPage b => .zeroPage b
  | .cmpZeroPageX b => .zeroPageX b
  | .cmpAbsolute w => .absolute w
  | .cmpAbsoluteX w => .absoluteX w
  | .cmpAbsoluteY w => .absoluteY w
  | .cmpIndirectX b => .indirectX b
  | .cmpIndirectY b => .indirectY b
  | .cpxImmediate v => .immediate v
  | .cpxZeroPage b => .zeroPage b
  | .cpxAbsolute w => .absolute w
  | .cpyImmediate v => .immediate v
  | .cpyZeroPage b => .zeroPage b
  | .cpyAbsolute w => .absolute w
  | .bcs b => .immediate b
  | .beq b => .immediate b
  | .bne b => .immediate b
  | .bmi b => .immediate b
  | .bpl b => .immediate b
  | .jmp w => .absolute w
  | .nop => .implied
  | .clc => .implied
  | .sec => .implied
  | .cli => .implied
  | .sei => .implied
  | .cld => .implied
  | .sed => .implied

/-- The mnemonics of the `named` profile (R5, R53). -/
def Mnemonic.inNamed : Mnemonic → Bool
  | .lda | .and | .ora | .asl | .tax | .inx | .bcc | .brk => true
  | .ldx | .ldy | .sta | .stx | .sty | .tay | .txa | .tya | .eor | .lsr | .rol | .ror | .iny | .dex | .dey | .inc | .dec | .cmp | .cpx | .cpy | .bcs | .beq | .bne | .bmi | .bpl | .jmp | .nop | .clc | .sec | .cli | .sei | .cld | .sed => false

end Sys2Proof
end

