-- ==== Sys2Proof/Machine/Bits.lean ====
section
/-! DEFINITION. The bit and byte-order helpers of 00_scope.md R10. -/

namespace Sys2Proof.Machine

/-- `lo(w) = w mod 256`. -/
def lo (w : Word) : Byte := w.extractLsb' 0 8

/-- `hi(w) = w >> 8`. -/
def hi (w : Word) : Byte := w.extractLsb' 8 8

/-- `concat(h, l) = h * 256 + l`. -/
def concat (h l : Byte) : Word := h ++ l

/-- `zext_16(b)`: zero fill. -/
def zext16 (b : Byte) : Word := b.setWidth 16

/-- `sext_16(b)`: bit 7 copied into bits 15 to 8. -/
def sext16 (b : Byte) : Word := b.signExtend 16

end Sys2Proof.Machine
end

