-- ==== Sys2Proof/Machine/Memory.lean ====
section
/-! DEFINITION. The flat 64 KiB memory (20_memory.md R29 to R37) as a list of (address, byte) cells in canonical
form: addresses strictly rising and below 65536, and no cell holding what an unlisted address reads as. -/

namespace Sys2Proof.Machine

/-- What an unlisted address reads as. DESIGN CHOICE (log entry 1): the spec leaves `initial_memory` open (D10).
The value only matters for `State.reset`: every image whatever has exactly one canonical list, so a statement
about every state holds for every image. -/
def Memory.fill : Byte := 0x00

def Memory.readCell : List Host.Cell → Nat → Byte
  | [], _ => Memory.fill
  | (k, v) :: rest, a => if k = a then v else Memory.readCell rest a

/-- Put a cell in front, unless it says no more than an unlisted address does. -/
def Memory.consCell (a : Nat) (b : Byte) (m : List Host.Cell) : List Host.Cell :=
  if b = Memory.fill then m else (a, b) :: m

def Memory.writeCell : List Host.Cell → Nat → Byte → List Host.Cell
  | [], a, b => Memory.consCell a b []
  | (k, v) :: rest, a, b =>
    if a < k then Memory.consCell a b ((k, v) :: rest)
    else if a = k then Memory.consCell a b rest
    else (k, v) :: Memory.writeCell rest a b

/-- Canonical from address `low` on. -/
def Memory.wfFrom (low : Nat) : List Host.Cell → Bool
  | [] => true
  | (k, v) :: rest => decide (low ≤ k) && decide (k < 65536) && (v != Memory.fill) && Memory.wfFrom (k + 1) rest

/-- The canonical form. -/
def Memory.wf (m : List Host.Cell) : Bool := Memory.wfFrom 0 m

/-- `MemRead(a, 1)` (R30). Every 16-bit address is valid (R29). -/
def Memory.read (m : List Host.Cell) (a : Word) : Byte := Memory.readCell m a.toNat

/-- `MemWrite(a, 1, b)` (R31). -/
def Memory.write (m : List Host.Cell) (a : Word) (b : Byte) : List Host.Cell := Memory.writeCell m a.toNat b

/-- `MemRead(a, 2)` (R32): little-endian, wrapping at the 16-bit boundary. -/
def Memory.read16 (m : List Host.Cell) (a : Word) : Word := concat (Memory.read m (a + 1)) (Memory.read m a)

/-- `MemWrite(a, 2, w)` (R33): low byte, then high byte. -/
def Memory.write16 (m : List Host.Cell) (a w : Word) : List Host.Cell :=
  Memory.write (Memory.write m a (lo w)) (a + 1) (hi w)

/-- `ZpRead16(z)` (R11): a word read that wraps within page 0. -/
def Memory.zpRead16 (m : List Host.Cell) (z : Byte) : Word :=
  concat (Memory.read m (zext16 (z + 1))) (Memory.read m (zext16 z))

/-- The copy loop of `write_slice` (R34), in increasing order of address. -/
def Memory.writeBytes (m : List Host.Cell) (a : Word) : List Byte → List Host.Cell
  | [] => m
  | b :: rest => Memory.writeBytes (Memory.write m a b) (a + 1) rest

/-- The `n` cells from address `a` on of an image. -/
def Memory.imageFrom (image : Word → Byte) (a : Nat) : Nat → List Host.Cell
  | 0 => []
  | n + 1 => Memory.consCell a (image (BitVec.ofNat 16 a)) (Memory.imageFrom image (a + 1) n)

/-- `initial_memory` (R138): any function from 16-bit addresses to bytes, as a canonical list. -/
def Memory.ofImage (image : Word → Byte) : List Host.Cell := Memory.imageFrom image 0 65536

end Sys2Proof.Machine
end

