-- ==== Sys2Proof/Machine/Parameters.lean ====
section
/-! DEFINITION. The setting of the parameters that State.reset carries. -/

namespace Sys2Proof.Machine

/-- The spec's own default of each parameter (00_scope.md R7): `named`, signed branch offsets, `page0`,
reset-capable. DESIGN CHOICE (log entry 3): `State.reset` carries these; every statement holds for all settings. -/
def configAtReset : Config where
  opcodeProfile := .named
  branchOffsetSigned := true
  indirectYPointerWrap := .page0
  resetCapable := true

end Sys2Proof.Machine
end

