-- ==== Sys2Proof/Machine/State.lean ====
section
/-! DEFINITION. The architectural state (10_state.md): the tuple (A, X, Y, P, pc, mem, run), and with it the
parameters of the instance. There is no stack pointer (R15) and no other state (R28). -/

namespace Sys2Proof.Machine

/-- The status register P (R19): seven flags. Nothing is stored for bit 5 of the packed value (R20; log
entry 5). -/
structure Status where
  /-- Carry -/
  c : Bool
  /-- Zero -/
  z : Bool
  /-- InterruptDisable -/
  i : Bool
  /-- DecimalMode -/
  d : Bool
  /-- BreakCommand -/
  b : Bool
  /-- Overflow -/
  v : Bool
  /-- Negative -/
  n : Bool
  deriving DecidableEq, Repr

/-- The kinds of a fatal halt (R117, R125). The kind is the cause code. -/
inductive FatalKind where
  /-- raised by the loop: the opcode byte is absent from the dispatch table (R126) -/
  | illegalInstruction
  /-- raised by the resolver: asked for Accumulator, Implied or Unresolved (R70, R127); no table row does so (log entry 13) -/
  | invalidAddressingMode
  deriving DecidableEq, Repr

/-- Why a run has ended. -/
inductive HaltReason where
  | success
  | fatal (k : FatalKind)
  deriving DecidableEq, Repr

/-- The run state (R27, R117). -/
inductive RunState where
  | running
  | halted (r : HaltReason)
  deriving DecidableEq, Repr

/-- The three registers of R13. -/
inductive Register where
  | a | x | y
  deriving DecidableEq, Repr

/-- The state of one core instance. -/
structure State where
  /-- the accumulator A (R13) -/
  a      : Byte
  /-- the index register X (R13) -/
  x      : Byte
  /-- the index register Y (R13) -/
  y      : Byte
  /-- the status register P (R19) -/
  p      : Status
  /-- the program counter (R16) -/
  pc     : Word
  /-- the 64 KiB memory (R29), in the canonical form `Memory.wf` -/
  mem    : List Host.Cell
  /-- the run state (R27) -/
  run    : RunState
  /-- the parameters of R7, the MODEL's own field: fixed for an instance, no step and no host operation writes it
  (log entries 3 and 4) -/
  config : Config
  deriving DecidableEq, Repr

/-- Why a step does not exist. Raised by `step` alone, never by an instruction: "no transition leaves a terminal
state" (R121). Safe: the loop has stopped there. -/
inductive Fault where
  /-- raised by `step` in Halted(Success) (R121); safe -/
  | noStepAfterSuccess
  /-- raised by `step` in Halted(Fatal, k) (R121); safe -/
  | noStepAfterFatal (k : FatalKind)
  deriving DecidableEq, Repr

/-- What the model gives no meaning. -/
inductive Refusal where
  /-- an instruction without a meaning; no arm of `exec` answers it, since every instruction has its meaning -/
  | notModelled (mnemonic : String)
  /-- raised by the host operations `write_slice` and `load_program` where the bytes would pass the top of memory:
  the host's precondition of R34 (D15) is broken (log entry 9); safe -/
  | sliceOutOfRange (start : Word) (length : Nat)
  deriving DecidableEq, Repr

/-- Every flag clear (R139). -/
def Status.clear : Status := ⟨false, false, false, false, false, false, false⟩

/-- The machine right after `reset()` (R139) over the memory that lists nothing: A = X = Y = 0, every flag clear,
`pc` the word at 0xFFFC, Running. -/
def State.reset : State where
  a := 0
  x := 0
  y := 0
  p := Status.clear
  pc := Memory.read16 [] 0xFFFC
  mem := []
  run := .running
  config := configAtReset

end Sys2Proof.Machine
end

