-- ==== Sys2Proof/Machine/Flags.lean ====
section
/-! DEFINITION. The status unit (10_state.md R20 to R24): test one flag, set or clear one flag, recompute Zero and
Negative, set Carry; and the packed value that only the host sees. -/

namespace Sys2Proof.Machine

/-- The seven flags of R19. -/
inductive Flag where
  | c | z | i | d | b | v | n
  deriving DecidableEq, Repr

/-- Test one flag (R21). -/
def Status.test (p : Status) : Flag → Bool
  | .c => p.c
  | .z => p.z
  | .i => p.i
  | .d => p.d
  | .b => p.b
  | .v => p.v
  | .n => p.n

/-- Set or clear one named flag (R21). -/
def Status.set (p : Status) (f : Flag) (on : Bool) : Status :=
  match f with
  | .c => { p with c := on }
  | .z => { p with z := on }
  | .i => { p with i := on }
  | .d => { p with d := on }
  | .b => { p with b := on }
  | .v => { p with v := on }
  | .n => { p with n := on }

/-- `set_carry(bool)` (R23). -/
def Status.setCarry (p : Status) (on : Bool) : Status := { p with c := on }

/-- `SetZN(v)`, the source's `recompute_zero_negative(v)` (R22). -/
def Status.setZN (p : Status) (v : Byte) : Status := { p with z := v == 0, n := v.getLsbD 7 }

/-- One flag's bit in the packed value. -/
def flagBit (on : Bool) (k : Nat) : Byte := if on then 1 <<< k else 0

/-- The host's packed read of P (R20): N V - B D I Z C from bit 7 to bit 0; bit 5 reads 0. -/
def Status.pack (p : Status) : Byte :=
  flagBit p.n 7 ||| flagBit p.v 6 ||| flagBit p.b 4 ||| flagBit p.d 3 ||| flagBit p.i 2 ||| flagBit p.z 1 |||
    flagBit p.c 0

/-- The host's packed write of P (R20): bit 5 is ignored. -/
def Status.unpack (w : Byte) : Status where
  c := w.getLsbD 0
  z := w.getLsbD 1
  i := w.getLsbD 2
  d := w.getLsbD 3
  b := w.getLsbD 4
  v := w.getLsbD 6
  n := w.getLsbD 7

end Sys2Proof.Machine
end

