-- ==== Sys2Proof/Machine/Ops.lean ====
section
/-! DEFINITION. The pseudocode primitives of 00_scope.md R11 as operations on State, the handler results of
44_execution_loop.md R120, and the one operation that raises a fatal condition (60_exceptions.md R131). -/

namespace Sys2Proof.Machine

/-! ### Memory -/

def State.readByte (s : State) (a : Word) : Byte := Memory.read s.mem a

def State.read16 (s : State) (a : Word) : Word := Memory.read16 s.mem a

def State.zpRead16 (s : State) (z : Byte) : Word := Memory.zpRead16 s.mem z

def State.writeByte (s : State) (a : Word) (b : Byte) : State := { s with mem := Memory.write s.mem a b }

/-! ### Registers, flags and the program counter -/

def State.reg (s : State) : Register → Byte
  | .a => s.a
  | .x => s.x
  | .y => s.y

def State.setReg (s : State) (r : Register) (v : Byte) : State :=
  match r with
  | .a => { s with a := v }
  | .x => { s with x := v }
  | .y => { s with y := v }

def State.setStatus (s : State) (p : Status) : State := { s with p := p }

def State.setFlag (s : State) (f : Flag) (on : Bool) : State := s.setStatus (s.p.set f on)

def State.setCarry (s : State) (on : Bool) : State := s.setStatus (s.p.setCarry on)

/-- `SetZN(v)` (R11, R22). -/
def State.setZN (s : State) (v : Byte) : State := s.setStatus (s.p.setZN v)

def State.setPc (s : State) (t : Word) : State := { s with pc := t }

/-- `advance(n)`: `pc <- (pc + n) mod 65536` (R11, R18). -/
def State.advance (s : State) (n : Nat) : State := s.setPc (s.pc + BitVec.ofNat 16 n)

/-! ### The end of a run -/

/-- `halt Success` (R11). -/
def State.haltSuccess (s : State) : State := { s with run := .halted .success }

/-- Raising a condition (R131): no state is saved, no vector is read and nothing but `run` is written, whatever
the kind; `pc` stands one past the opcode byte because the loop advanced it before the lookup (R119). There is no
return from a condition (R132): only the host's construction or `reset()` starts a new run. -/
def State.raise (s : State) (k : FatalKind) : State := { s with run := .halted (.fatal k) }

/-- What a handler returns to the loop (R120), with the state it leaves. -/
inductive HandlerResult where
  /-- Continue -/
  | continues (s : State)
  /-- EndProgram -/
  | endsProgram (s : State)
  /-- Illegal, with the kind that the resolver raised -/
  | illegal (k : FatalKind) (s : State)
  deriving DecidableEq, Repr

/-- The loop's map of a handler result (R120): stay Running, Halted(Success), Halted(Fatal). -/
def HandlerResult.finish : HandlerResult → Host.Outcome State Fault Refusal
  | .continues s => .next s
  | .endsProgram s => .next s.haltSuccess
  | .illegal k s => .next (s.raise k)

end Sys2Proof.Machine
end

