-- ==== Sys2Proof/Machine/Operands.lean ====
section
/-! DEFINITION. The addressing-mode resolver (40_addressing_modes.md R60 to R71) and the two handler forms over it
(41_loads_stores_transfers.md R72, R73). A handler starts with `pc` one past the opcode byte (R12). -/

namespace Sys2Proof.Machine

/-- The pointer that IndirectY reads at the zero-page address `z`, under `indirect_y_pointer_wrap` (R69, D8). -/
def State.indirectYPointer (s : State) (z : Byte) : Word :=
  match s.config.indirectYPointerWrap with
  | .page0 => s.zpRead16 z
  | .linear => s.read16 (zext16 z)

/-- `EA(mode)` (R61 to R70) for an operand whose bytes the decoder has read. Every sum wraps in its indexing
domain: 8 bits for the zero-page forms, 16 bits for the others (R60). -/
def resolve (o : Operand) (s : State) : Except FatalKind Word :=
  match o with
  | .immediate _ => .ok s.pc
  | .zeroPage b => .ok (zext16 b)
  | .zeroPageX b => .ok (zext16 (b + s.x))
  | .zeroPageY b => .ok (zext16 (b + s.y))
  | .absolute w => .ok w
  | .absoluteX w => .ok (w + zext16 s.x)
  | .absoluteY w => .ok (w + zext16 s.y)
  | .indirectX b => .ok (s.zpRead16 (b + s.x))
  | .indirectY b => .ok (s.indirectYPointer b + zext16 s.y)
  | .accumulator | .implied | .unresolved => .error .invalidAddressingMode

/-- The operand whose bytes stand in memory at `pc` (R50, R51). -/
def State.operandAtPc (s : State) : AddressMode → Operand
  | .accumulator => .accumulator
  | .implied => .implied
  | .immediate => .immediate (s.readByte s.pc)
  | .zeroPage => .zeroPage (s.readByte s.pc)
  | .zeroPageX => .zeroPageX (s.readByte s.pc)
  | .zeroPageY => .zeroPageY (s.readByte s.pc)
  | .absolute => .absolute (s.read16 s.pc)
  | .absoluteX => .absoluteX (s.read16 s.pc)
  | .absoluteY => .absoluteY (s.read16 s.pc)
  | .indirectX => .indirectX (s.readByte s.pc)
  | .indirectY => .indirectY (s.readByte s.pc)
  | .unresolved => .unresolved

/-- The data byte a handler reads: `MemRead(ea, 1)`. An immediate's is the byte the decoder read at
`EA(Immediate) = pc` (R51, R61; log entry 7). -/
def State.operandByte (s : State) (o : Operand) (ea : Word) : Byte :=
  match o with
  | .immediate v => v
  | _ => s.readByte ea

/-- The one resolver call of a handler (R71): its address goes to `body`; InvalidAddressingMode makes the handler
return Illegal with none of its own effects (R127). -/
def withAddress (o : Operand) (s : State) (body : Word → HandlerResult) : HandlerResult :=
  match resolve o s with
  | .ok ea => body ea
  | .error k => .illegal k s

/-- R72, the memory-operand form: resolve, read, combine and write, and last `advance(bytes - 1)`. -/
def memoryForm (o : Operand) (body : Word → State → State) (s : State) : HandlerResult :=
  withAddress o s fun ea => .continues ((body ea s).advance (o.bytes - 1))

/-- R73, the register-only form: no resolver call, no memory access, no `pc` advance. -/
def registerForm (body : State → State) (s : State) : HandlerResult := .continues (body s)

end Sys2Proof.Machine
end

