-- ==== Sys2Proof/Machine/Compares.lean ====
section
/-! DEFINITION. Compares (42_alu.md R98 to R100). -/

namespace Sys2Proof.Machine

/-- A compare: C is `register >= m`, unsigned; Z and N follow `(register - m) mod 256`; no register is written. -/
def compareWith (r : Register) (o : Operand) : State → HandlerResult :=
  memoryForm o fun ea s =>
    (s.setCarry ((s.operandByte o ea).ule (s.reg r))).setZN (s.reg r - s.operandByte o ea)

/-- R98. -/
def handleCmp (o : Operand) (s : State) : HandlerResult := compareWith .a o s
/-- R99. -/
def handleCpx (o : Operand) (s : State) : HandlerResult := compareWith .x o s
/-- R100. -/
def handleCpy (o : Operand) (s : State) : HandlerResult := compareWith .y o s

/-! CMP, one meaning per row of the table (R98). -/

/-- 0xC9, immediate operand. -/
def execCmpImmediate (v : Byte) (s : State) : Host.Outcome State Fault Refusal := (handleCmp (.immediate v) s).finish

/-- 0xC5, ZeroPage operand. -/
def execCmpZeroPage (b : Byte) (s : State) : Host.Outcome State Fault Refusal := (handleCmp (.zeroPage b) s).finish

/-- 0xD5, ZeroPageX operand. -/
def execCmpZeroPageX (b : Byte) (s : State) : Host.Outcome State Fault Refusal := (handleCmp (.zeroPageX b) s).finish

/-- 0xCD, Absolute operand. -/
def execCmpAbsolute (w : Word) (s : State) : Host.Outcome State Fault Refusal := (handleCmp (.absolute w) s).finish

/-- 0xDD, AbsoluteX operand. -/
def execCmpAbsoluteX (w : Word) (s : State) : Host.Outcome State Fault Refusal := (handleCmp (.absoluteX w) s).finish

/-- 0xD9, AbsoluteY operand. -/
def execCmpAbsoluteY (w : Word) (s : State) : Host.Outcome State Fault Refusal := (handleCmp (.absoluteY w) s).finish

/-- 0xC1, IndirectX operand. -/
def execCmpIndirectX (b : Byte) (s : State) : Host.Outcome State Fault Refusal := (handleCmp (.indirectX b) s).finish

/-- 0xD1, IndirectY operand. -/
def execCmpIndirectY (b : Byte) (s : State) : Host.Outcome State Fault Refusal := (handleCmp (.indirectY b) s).finish

/-! CPX, one meaning per row of the table (R99). -/

/-- 0xE0, immediate operand. -/
def execCpxImmediate (v : Byte) (s : State) : Host.Outcome State Fault Refusal := (handleCpx (.immediate v) s).finish

/-- 0xE4, ZeroPage operand. -/
def execCpxZeroPage (b : Byte) (s : State) : Host.Outcome State Fault Refusal := (handleCpx (.zeroPage b) s).finish

/-- 0xEC, Absolute operand. -/
def execCpxAbsolute (w : Word) (s : State) : Host.Outcome State Fault Refusal := (handleCpx (.absolute w) s).finish

/-! CPY, one meaning per row of the table (R100). -/

/-- 0xC0, immediate operand. -/
def execCpyImmediate (v : Byte) (s : State) : Host.Outcome State Fault Refusal := (handleCpy (.immediate v) s).finish

/-- 0xC4, ZeroPage operand. -/
def execCpyZeroPage (b : Byte) (s : State) : Host.Outcome State Fault Refusal := (handleCpy (.zeroPage b) s).finish

/-- 0xCC, Absolute operand. -/
def execCpyAbsolute (w : Word) (s : State) : Host.Outcome State Fault Refusal := (handleCpy (.absolute w) s).finish

end Sys2Proof.Machine
end

