-- ==== Sys2Proof/Machine/Control.lean ====
section
/-! DEFINITION. Branches, the jump, the terminator, the no-operation and the flag instructions
(43_control_and_system.md R101 to R116). -/

namespace Sys2Proof.Machine

/-- `off` of R101: the offset byte, sign-extended or zero-extended as `branch_offset_signed` says (D3). -/
def State.branchOffset (s : State) (b : Byte) : Word :=
  if s.config.branchOffsetSigned then sext16 b else zext16 b

/-- R101: the offset byte is at `EA(Immediate) = pc` (D5); `pc` moves past it whether or not the branch is taken,
and a taken branch adds the offset to the address after the branch (conflict C2, D4). -/
def branch (taken : Status → Bool) (o : Operand) (s : State) : HandlerResult :=
  withAddress o s fun ea =>
    if taken s.p then .continues (s.setPc (s.pc + 1 + s.branchOffset (s.operandByte o ea)))
    else .continues (s.setPc (s.pc + 1))

/-- A handler that writes one flag (R111 to R116). -/
def writeFlag (f : Flag) (on : Bool) : State → HandlerResult := registerForm fun s => s.setFlag f on

/-- R102: `P.C == 0`. -/
def handleBcc (o : Operand) (s : State) : HandlerResult := branch (fun p => !p.test .c) o s
/-- R103: `P.C == 1`. -/
def handleBcs (o : Operand) (s : State) : HandlerResult := branch (fun p => p.test .c) o s
/-- R104: `P.Z == 1`. -/
def handleBeq (o : Operand) (s : State) : HandlerResult := branch (fun p => p.test .z) o s
/-- R105: `P.Z == 0`. -/
def handleBne (o : Operand) (s : State) : HandlerResult := branch (fun p => !p.test .z) o s
/-- R106: `P.N == 1`. -/
def handleBmi (o : Operand) (s : State) : HandlerResult := branch (fun p => p.test .n) o s
/-- R107: `P.N == 0`. -/
def handleBpl (o : Operand) (s : State) : HandlerResult := branch (fun p => !p.test .n) o s

/-- R108: `pc <- EA(Absolute)`, with no `advance`. -/
def handleJmp (o : Operand) (s : State) : HandlerResult := withAddress o s fun ea => .continues (s.setPc ea)

/-- R109: EndProgram. It writes no register, no flag and no memory byte and does not advance `pc` (D6). -/
def handleBrk (s : State) : HandlerResult := .endsProgram s

/-- R110. -/
def handleNop (s : State) : HandlerResult := registerForm (fun s => s) s
/-- R111. -/
def handleClc (s : State) : HandlerResult := writeFlag .c false s
/-- R112. -/
def handleSec (s : State) : HandlerResult := writeFlag .c true s
/-- R113: it has no other effect, since the core has no interrupts (R129). -/
def handleCli (s : State) : HandlerResult := writeFlag .i false s
/-- R114. -/
def handleSei (s : State) : HandlerResult := writeFlag .i true s
/-- R115: it has no other effect, since no instruction reads D (R24). -/
def handleCld (s : State) : HandlerResult := writeFlag .d false s
/-- R116. -/
def handleSed (s : State) : HandlerResult := writeFlag .d true s

/-! BCC, one meaning per row of the table (R102). -/

/-- 0x90, branch offset in the operand byte. -/
def execBcc (b : Byte) (s : State) : Host.Outcome State Fault Refusal := (handleBcc (.immediate b) s).finish

/-! BCS, one meaning per row of the table (R103). -/

/-- 0xB0, branch offset in the operand byte. -/
def execBcs (b : Byte) (s : State) : Host.Outcome State Fault Refusal := (handleBcs (.immediate b) s).finish

/-! BEQ, one meaning per row of the table (R104). -/

/-- 0xF0, branch offset in the operand byte. -/
def execBeq (b : Byte) (s : State) : Host.Outcome State Fault Refusal := (handleBeq (.immediate b) s).finish

/-! BNE, one meaning per row of the table (R105). -/

/-- 0xD0, branch offset in the operand byte. -/
def execBne (b : Byte) (s : State) : Host.Outcome State Fault Refusal := (handleBne (.immediate b) s).finish

/-! BMI, one meaning per row of the table (R106). -/

/-- 0x30, branch offset in the operand byte. -/
def execBmi (b : Byte) (s : State) : Host.Outcome State Fault Refusal := (handleBmi (.immediate b) s).finish

/-! BPL, one meaning per row of the table (R107). -/

/-- 0x10, branch offset in the operand byte. -/
def execBpl (b : Byte) (s : State) : Host.Outcome State Fault Refusal := (handleBpl (.immediate b) s).finish

/-! JMP, one meaning per row of the table (R108). -/

/-- 0x4C, Absolute operand. -/
def execJmp (w : Word) (s : State) : Host.Outcome State Fault Refusal := (handleJmp (.absolute w) s).finish

/-! BRK, one meaning per row of the table (R109). -/

/-- 0x00, implied. -/
def execBrk (s : State) : Host.Outcome State Fault Refusal := (handleBrk s).finish

/-! NOP, one meaning per row of the table (R110). -/

/-- 0xEA, implied. -/
def execNop (s : State) : Host.Outcome State Fault Refusal := (handleNop s).finish

/-! CLC, one meaning per row of the table (R111). -/

/-- 0x18, implied. -/
def execClc (s : State) : Host.Outcome State Fault Refusal := (handleClc s).finish

/-! SEC, one meaning per row of the table (R112). -/

/-- 0x38, implied. -/
def execSec (s : State) : Host.Outcome State Fault Refusal := (handleSec s).finish

/-! CLI, one meaning per row of the table (R113). -/

/-- 0x58, implied. -/
def execCli (s : State) : Host.Outcome State Fault Refusal := (handleCli s).finish

/-! SEI, one meaning per row of the table (R114). -/

/-- 0x78, implied. -/
def execSei (s : State) : Host.Outcome State Fault Refusal := (handleSei s).finish

/-! CLD, one meaning per row of the table (R115). -/

/-- 0xD8, implied. -/
def execCld (s : State) : Host.Outcome State Fault Refusal := (handleCld s).finish

/-! SED, one meaning per row of the table (R116). -/

/-- 0xF8, implied. -/
def execSed (s : State) : Host.Outcome State Fault Refusal := (handleSed s).finish

end Sys2Proof.Machine
end

