-- ==== Sys2Proof/Machine/Counts.lean ====
section
/-! DEFINITION. Increments and decrements (42_alu.md R92 to R97). Carry is not written. -/

namespace Sys2Proof.Machine

/-- `(v + 1) mod 256`. -/
def increment (v : Byte) : Byte := v + 1

/-- `(v - 1) mod 256`. -/
def decrement (v : Byte) : Byte := v - 1

/-- A count in a register (R92 to R95). -/
def countRegister (f : Byte → Byte) (r : Register) : State → HandlerResult :=
  registerForm fun s => (s.setReg r (f (s.reg r))).setZN (f (s.reg r))

/-- A count in memory (R96, R97): the byte is written once. -/
def countMemory (f : Byte → Byte) (o : Operand) : State → HandlerResult :=
  memoryForm o fun ea s => (s.writeByte ea (f (s.operandByte o ea))).setZN (f (s.operandByte o ea))

/-- R92. -/
def handleInx (s : State) : HandlerResult := countRegister increment .x s
/-- R93. -/
def handleIny (s : State) : HandlerResult := countRegister increment .y s
/-- R94. -/
def handleDex (s : State) : HandlerResult := countRegister decrement .x s
/-- R95. -/
def handleDey (s : State) : HandlerResult := countRegister decrement .y s
/-- R96. -/
def handleInc (o : Operand) (s : State) : HandlerResult := countMemory increment o s
/-- R97. -/
def handleDec (o : Operand) (s : State) : HandlerResult := countMemory decrement o s

/-! INX, one meaning per row of the table (R92). -/

/-- 0xE8, implied. -/
def execInx (s : State) : Host.Outcome State Fault Refusal := (handleInx s).finish

/-! INY, one meaning per row of the table (R93). -/

/-- 0xC8, implied. -/
def execIny (s : State) : Host.Outcome State Fault Refusal := (handleIny s).finish

/-! DEX, one meaning per row of the table (R94). -/

/-- 0xCA, implied. -/
def execDex (s : State) : Host.Outcome State Fault Refusal := (handleDex s).finish

/-! DEY, one meaning per row of the table (R95). -/

/-- 0x88, implied. -/
def execDey (s : State) : Host.Outcome State Fault Refusal := (handleDey s).finish

/-! INC, one meaning per row of the table (R96). -/

/-- 0xE6, ZeroPage operand. -/
def execIncZeroPage (b : Byte) (s : State) : Host.Outcome State Fault Refusal := (handleInc (.zeroPage b) s).finish

/-- 0xF6, ZeroPageX operand. -/
def execIncZeroPageX (b : Byte) (s : State) : Host.Outcome State Fault Refusal := (handleInc (.zeroPageX b) s).finish

/-- 0xEE, Absolute operand. -/
def execIncAbsolute (w : Word) (s : State) : Host.Outcome State Fault Refusal := (handleInc (.absolute w) s).finish

/-- 0xFE, AbsoluteX operand. -/
def execIncAbsoluteX (w : Word) (s : State) : Host.Outcome State Fault Refusal := (handleInc (.absoluteX w) s).finish

/-! DEC, one meaning per row of the table (R97). -/

/-- 0xC6, ZeroPage operand. -/
def execDecZeroPage (b : Byte) (s : State) : Host.Outcome State Fault Refusal := (handleDec (.zeroPage b) s).finish

/-- 0xD6, ZeroPageX operand. -/
def execDecZeroPageX (b : Byte) (s : State) : Host.Outcome State Fault Refusal := (handleDec (.zeroPageX b) s).finish

/-- 0xCE, Absolute operand. -/
def execDecAbsolute (w : Word) (s : State) : Host.Outcome State Fault Refusal := (handleDec (.absolute w) s).finish

/-- 0xDE, AbsoluteX operand. -/
def execDecAbsoluteX (w : Word) (s : State) : Host.Outcome State Fault Refusal := (handleDec (.absoluteX w) s).finish

end Sys2Proof.Machine
end

