-- ==== Sys2Proof/Machine/Loads.lean ====
section
/-! DEFINITION. Loads, stores and register transfers (41_loads_stores_transfers.md R74 to R83). -/

namespace Sys2Proof.Machine

/-- A load (R74, R76, R77): the byte at the effective address goes to the register, and Z and N follow it. -/
def load (r : Register) (o : Operand) : State → HandlerResult :=
  memoryForm o fun ea s => (s.setReg r (s.operandByte o ea)).setZN (s.operandByte o ea)

/-- A store (R78 to R80): the register goes to the byte at the effective address; no flag is written. -/
def store (r : Register) (o : Operand) : State → HandlerResult :=
  memoryForm o fun ea s => s.writeByte ea (s.reg r)

/-- A register transfer (R75, R81 to R83): Z and N follow the destination's new value. -/
def transfer (src dst : Register) : State → HandlerResult :=
  registerForm fun s => (s.setReg dst (s.reg src)).setZN (s.reg src)

/-- R74. -/
def handleLda (o : Operand) (s : State) : HandlerResult := load .a o s
/-- R76. -/
def handleLdx (o : Operand) (s : State) : HandlerResult := load .x o s
/-- R77. -/
def handleLdy (o : Operand) (s : State) : HandlerResult := load .y o s
/-- R78. -/
def handleSta (o : Operand) (s : State) : HandlerResult := store .a o s
/-- R79. -/
def handleStx (o : Operand) (s : State) : HandlerResult := store .x o s
/-- R80. -/
def handleSty (o : Operand) (s : State) : HandlerResult := store .y o s
/-- R75. -/
def handleTax (s : State) : HandlerResult := transfer .a .x s
/-- R81. -/
def handleTay (s : State) : HandlerResult := transfer .a .y s
/-- R82. -/
def handleTxa (s : State) : HandlerResult := transfer .x .a s
/-- R83. -/
def handleTya (s : State) : HandlerResult := transfer .y .a s

/-! LDA, one meaning per row of the table (R74). -/

/-- 0xA9, immediate operand. -/
def execLdaImmediate (v : Byte) (s : State) : Host.Outcome State Fault Refusal := (handleLda (.immediate v) s).finish

/-- 0xA5, ZeroPage operand. -/
def execLdaZeroPage (b : Byte) (s : State) : Host.Outcome State Fault Refusal := (handleLda (.zeroPage b) s).finish

/-- 0xB5, ZeroPageX operand. -/
def execLdaZeroPageX (b : Byte) (s : State) : Host.Outcome State Fault Refusal := (handleLda (.zeroPageX b) s).finish

/-- 0xAD, Absolute operand. -/
def execLdaAbsolute (w : Word) (s : State) : Host.Outcome State Fault Refusal := (handleLda (.absolute w) s).finish

/-- 0xBD, AbsoluteX operand. -/
def execLdaAbsoluteX (w : Word) (s : State) : Host.Outcome State Fault Refusal := (handleLda (.absoluteX w) s).finish

/-- 0xB9, AbsoluteY operand. -/
def execLdaAbsoluteY (w : Word) (s : State) : Host.Outcome State Fault Refusal := (handleLda (.absoluteY w) s).finish

/-- 0xA1, IndirectX operand. -/
def execLdaIndirectX (b : Byte) (s : State) : Host.Outcome State Fault Refusal := (handleLda (.indirectX b) s).finish

/-- 0xB1, IndirectY operand. -/
def execLdaIndirectY (b : Byte) (s : State) : Host.Outcome State Fault Refusal := (handleLda (.indirectY b) s).finish

/-! LDX, one meaning per row of the table (R76). -/

/-- 0xA2, immediate operand. -/
def execLdxImmediate (v : Byte) (s : State) : Host.Outcome State Fault Refusal := (handleLdx (.immediate v) s).finish

/-- 0xA6, ZeroPage operand. -/
def execLdxZeroPage (b : Byte) (s : State) : Host.Outcome State Fault Refusal := (handleLdx (.zeroPage b) s).finish

/-- 0xB6, ZeroPageY operand. -/
def execLdxZeroPageY (b : Byte) (s : State) : Host.Outcome State Fault Refusal := (handleLdx (.zeroPageY b) s).finish

/-- 0xAE, Absolute operand. -/
def execLdxAbsolute (w : Word) (s : State) : Host.Outcome State Fault Refusal := (handleLdx (.absolute w) s).finish

/-- 0xBE, AbsoluteY operand. -/
def execLdxAbsoluteY (w : Word) (s : State) : Host.Outcome State Fault Refusal := (handleLdx (.absoluteY w) s).finish

/-! LDY, one meaning per row of the table (R77). -/

/-- 0xA0, immediate operand. -/
def execLdyImmediate (v : Byte) (s : State) : Host.Outcome State Fault Refusal := (handleLdy (.immediate v) s).finish

/-- 0xA4, ZeroPage operand. -/
def execLdyZeroPage (b : Byte) (s : State) : Host.Outcome State Fault Refusal := (handleLdy (.zeroPage b) s).finish

/-- 0xB4, ZeroPageX operand. -/
def execLdyZeroPageX (b : Byte) (s : State) : Host.Outcome State Fault Refusal := (handleLdy (.zeroPageX b) s).finish

/-- 0xAC, Absolute operand. -/
def execLdyAbsolute (w : Word) (s : State) : Host.Outcome State Fault Refusal := (handleLdy (.absolute w) s).finish

/-- 0xBC, AbsoluteX operand. -/
def execLdyAbsoluteX (w : Word) (s : State) : Host.Outcome State Fault Refusal := (handleLdy (.absoluteX w) s).finish

/-! STA, one meaning per row of the table (R78). -/

/-- 0x85, ZeroPage operand. -/
def execStaZeroPage (b : Byte) (s : State) : Host.Outcome State Fault Refusal := (handleSta (.zeroPage b) s).finish

/-- 0x95, ZeroPageX operand. -/
def execStaZeroPageX (b : Byte) (s : State) : Host.Outcome State Fault Refusal := (handleSta (.zeroPageX b) s).finish

/-- 0x8D, Absolute operand. -/
def execStaAbsolute (w : Word) (s : State) : Host.Outcome State Fault Refusal := (handleSta (.absolute w) s).finish

/-- 0x9D, AbsoluteX operand. -/
def execStaAbsoluteX (w : Word) (s : State) : Host.Outcome State Fault Refusal := (handleSta (.absoluteX w) s).finish

/-- 0x99, AbsoluteY operand. -/
def execStaAbsoluteY (w : Word) (s : State) : Host.Outcome State Fault Refusal := (handleSta (.absoluteY w) s).finish

/-- 0x81, IndirectX operand. -/
def execStaIndirectX (b : Byte) (s : State) : Host.Outcome State Fault Refusal := (handleSta (.indirectX b) s).finish

/-- 0x91, IndirectY operand. -/
def execStaIndirectY (b : Byte) (s : State) : Host.Outcome State Fault Refusal := (handleSta (.indirectY b) s).finish

/-! STX, one meaning per row of the table (R79). -/

/-- 0x86, ZeroPage operand. -/
def execStxZeroPage (b : Byte) (s : State) : Host.Outcome State Fault Refusal := (handleStx (.zeroPage b) s).finish

/-- 0x96, ZeroPageY operand. -/
def execStxZeroPageY (b : Byte) (s : State) : Host.Outcome State Fault Refusal := (handleStx (.zeroPageY b) s).finish

/-- 0x8E, Absolute operand. -/
def execStxAbsolute (w : Word) (s : State) : Host.Outcome State Fault Refusal := (handleStx (.absolute w) s).finish

/-! STY, one meaning per row of the table (R80). -/

/-- 0x84, ZeroPage operand. -/
def execStyZeroPage (b : Byte) (s : State) : Host.Outcome State Fault Refusal := (handleSty (.zeroPage b) s).finish

/-- 0x94, ZeroPageX operand. -/
def execStyZeroPageX (b : Byte) (s : State) : Host.Outcome State Fault Refusal := (handleSty (.zeroPageX b) s).finish

/-- 0x8C, Absolute operand. -/
def execStyAbsolute (w : Word) (s : State) : Host.Outcome State Fault Refusal := (handleSty (.absolute w) s).finish

/-! TAX, one meaning per row of the table (R75). -/

/-- 0xAA, implied. -/
def execTax (s : State) : Host.Outcome State Fault Refusal := (handleTax s).finish

/-! TAY, one meaning per row of the table (R81). -/

/-- 0xA8, implied. -/
def execTay (s : State) : Host.Outcome State Fault Refusal := (handleTay s).finish

/-! TXA, one meaning per row of the table (R82). -/

/-- 0x8A, implied. -/
def execTxa (s : State) : Host.Outcome State Fault Refusal := (handleTxa s).finish

/-! TYA, one meaning per row of the table (R83). -/

/-- 0x98, implied. -/
def execTya (s : State) : Host.Outcome State Fault Refusal := (handleTya s).finish

end Sys2Proof.Machine
end

