-- ==== Sys2Proof/Machine/Logic.lean ====
section
/-! DEFINITION. The logical operations (42_alu.md R85 to R87). -/

namespace Sys2Proof.Machine

/-- A logical operation: A combined with the byte at the effective address goes to A; Z and N follow it. -/
def logical (f : Byte → Byte → Byte) (o : Operand) : State → HandlerResult :=
  memoryForm o fun ea s => (s.setReg .a (f s.a (s.operandByte o ea))).setZN (f s.a (s.operandByte o ea))

/-- R85. -/
def handleAnd (o : Operand) (s : State) : HandlerResult := logical (· &&& ·) o s
/-- R86. -/
def handleOra (o : Operand) (s : State) : HandlerResult := logical (· ||| ·) o s
/-- R87. -/
def handleEor (o : Operand) (s : State) : HandlerResult := logical (· ^^^ ·) o s

/-! AND, one meaning per row of the table (R85). -/

/-- 0x29, immediate operand. -/
def execAndImmediate (v : Byte) (s : State) : Host.Outcome State Fault Refusal := (handleAnd (.immediate v) s).finish

/-- 0x25, ZeroPage operand. -/
def execAndZeroPage (b : Byte) (s : State) : Host.Outcome State Fault Refusal := (handleAnd (.zeroPage b) s).finish

/-- 0x35, ZeroPageX operand. -/
def execAndZeroPageX (b : Byte) (s : State) : Host.Outcome State Fault Refusal := (handleAnd (.zeroPageX b) s).finish

/-- 0x2D, Absolute operand. -/
def execAndAbsolute (w : Word) (s : State) : Host.Outcome State Fault Refusal := (handleAnd (.absolute w) s).finish

/-- 0x3D, AbsoluteX operand. -/
def execAndAbsoluteX (w : Word) (s : State) : Host.Outcome State Fault Refusal := (handleAnd (.absoluteX w) s).finish

/-- 0x39, AbsoluteY operand. -/
def execAndAbsoluteY (w : Word) (s : State) : Host.Outcome State Fault Refusal := (handleAnd (.absoluteY w) s).finish

/-- 0x21, IndirectX operand. -/
def execAndIndirectX (b : Byte) (s : State) : Host.Outcome State Fault Refusal := (handleAnd (.indirectX b) s).finish

/-- 0x31, IndirectY operand. -/
def execAndIndirectY (b : Byte) (s : State) : Host.Outcome State Fault Refusal := (handleAnd (.indirectY b) s).finish

/-! ORA, one meaning per row of the table (R86). -/

/-- 0x09, immediate operand. -/
def execOraImmediate (v : Byte) (s : State) : Host.Outcome State Fault Refusal := (handleOra (.immediate v) s).finish

/-- 0x05, ZeroPage operand. -/
def execOraZeroPage (b : Byte) (s : State) : Host.Outcome State Fault Refusal := (handleOra (.zeroPage b) s).finish

/-- 0x15, ZeroPageX operand. -/
def execOraZeroPageX (b : Byte) (s : State) : Host.Outcome State Fault Refusal := (handleOra (.zeroPageX b) s).finish

/-- 0x0D, Absolute operand. -/
def execOraAbsolute (w : Word) (s : State) : Host.Outcome State Fault Refusal := (handleOra (.absolute w) s).finish

/-- 0x1D, AbsoluteX operand. -/
def execOraAbsoluteX (w : Word) (s : State) : Host.Outcome State Fault Refusal := (handleOra (.absoluteX w) s).finish

/-- 0x19, AbsoluteY operand. -/
def execOraAbsoluteY (w : Word) (s : State) : Host.Outcome State Fault Refusal := (handleOra (.absoluteY w) s).finish

/-- 0x01, IndirectX operand. -/
def execOraIndirectX (b : Byte) (s : State) : Host.Outcome State Fault Refusal := (handleOra (.indirectX b) s).finish

/-- 0x11, IndirectY operand. -/
def execOraIndirectY (b : Byte) (s : State) : Host.Outcome State Fault Refusal := (handleOra (.indirectY b) s).finish

/-! EOR, one meaning per row of the table (R87). -/

/-- 0x49, immediate operand. -/
def execEorImmediate (v : Byte) (s : State) : Host.Outcome State Fault Refusal := (handleEor (.immediate v) s).finish

/-- 0x45, ZeroPage operand. -/
def execEorZeroPage (b : Byte) (s : State) : Host.Outcome State Fault Refusal := (handleEor (.zeroPage b) s).finish

/-- 0x55, ZeroPageX operand. -/
def execEorZeroPageX (b : Byte) (s : State) : Host.Outcome State Fault Refusal := (handleEor (.zeroPageX b) s).finish

/-- 0x4D, Absolute operand. -/
def execEorAbsolute (w : Word) (s : State) : Host.Outcome State Fault Refusal := (handleEor (.absolute w) s).finish

/-- 0x5D, AbsoluteX operand. -/
def execEorAbsoluteX (w : Word) (s : State) : Host.Outcome State Fault Refusal := (handleEor (.absoluteX w) s).finish

/-- 0x59, AbsoluteY operand. -/
def execEorAbsoluteY (w : Word) (s : State) : Host.Outcome State Fault Refusal := (handleEor (.absoluteY w) s).finish

/-- 0x41, IndirectX operand. -/
def execEorIndirectX (b : Byte) (s : State) : Host.Outcome State Fault Refusal := (handleEor (.indirectX b) s).finish

/-- 0x51, IndirectY operand. -/
def execEorIndirectY (b : Byte) (s : State) : Host.Outcome State Fault Refusal := (handleEor (.indirectY b) s).finish

end Sys2Proof.Machine
end

