-- ==== Sys2Proof/Machine/Shifts.lean ====
section
/-! DEFINITION. Shifts and rotates (42_alu.md R88 to R91), in the accumulator and in memory. -/

namespace Sys2Proof.Machine

inductive ShiftOp where
  | asl | lsr | rol | ror
  deriving DecidableEq, Repr

/-- The result of a shift of `v`; a rotate takes the old Carry into the vacated bit (R88 to R91). -/
def ShiftOp.result (op : ShiftOp) (carry : Bool) (v : Byte) : Byte :=
  match op with
  | .asl => v <<< 1
  | .lsr => v >>> 1
  | .rol => v <<< 1 ||| (if carry then 0x01 else 0x00)
  | .ror => v >>> 1 ||| (if carry then 0x80 else 0x00)

/-- The new Carry: the bit shifted out, "never inferred from the result" (R23). -/
def ShiftOp.carryOut (op : ShiftOp) (v : Byte) : Bool :=
  match op with
  | .asl | .rol => v.getLsbD 7
  | .lsr | .ror => v.getLsbD 0

/-- The accumulator form: a register-only handler (R73). -/
def shiftAccumulator (op : ShiftOp) : State → HandlerResult :=
  registerForm fun s =>
    ((s.setCarry (op.carryOut s.a)).setReg .a (op.result s.p.c s.a)).setZN (op.result s.p.c s.a)

/-- The memory form: it writes the byte once (R48). -/
def shiftMemory (op : ShiftOp) (o : Operand) : State → HandlerResult :=
  memoryForm o fun ea s =>
    ((s.writeByte ea (op.result s.p.c (s.operandByte o ea))).setCarry (op.carryOut (s.operandByte o ea))).setZN
      (op.result s.p.c (s.operandByte o ea))

def shift (op : ShiftOp) (o : Operand) (s : State) : HandlerResult :=
  match o with
  | .accumulator => shiftAccumulator op s
  | _ => shiftMemory op o s

/-- R88. -/
def handleAsl (o : Operand) (s : State) : HandlerResult := shift .asl o s
/-- R89. -/
def handleLsr (o : Operand) (s : State) : HandlerResult := shift .lsr o s
/-- R90. -/
def handleRol (o : Operand) (s : State) : HandlerResult := shift .rol o s
/-- R91. -/
def handleRor (o : Operand) (s : State) : HandlerResult := shift .ror o s

/-! ASL, one meaning per row of the table (R88). -/

/-- 0x0A, accumulator operand. -/
def execAslAccumulator (s : State) : Host.Outcome State Fault Refusal := (handleAsl .accumulator s).finish

/-- 0x06, ZeroPage operand. -/
def execAslZeroPage (b : Byte) (s : State) : Host.Outcome State Fault Refusal := (handleAsl (.zeroPage b) s).finish

/-- 0x16, ZeroPageX operand. -/
def execAslZeroPageX (b : Byte) (s : State) : Host.Outcome State Fault Refusal := (handleAsl (.zeroPageX b) s).finish

/-- 0x0E, Absolute operand. -/
def execAslAbsolute (w : Word) (s : State) : Host.Outcome State Fault Refusal := (handleAsl (.absolute w) s).finish

/-- 0x1E, AbsoluteX operand. -/
def execAslAbsoluteX (w : Word) (s : State) : Host.Outcome State Fault Refusal := (handleAsl (.absoluteX w) s).finish

/-! LSR, one meaning per row of the table (R89). -/

/-- 0x4A, accumulator operand. -/
def execLsrAccumulator (s : State) : Host.Outcome State Fault Refusal := (handleLsr .accumulator s).finish

/-- 0x46, ZeroPage operand. -/
def execLsrZeroPage (b : Byte) (s : State) : Host.Outcome State Fault Refusal := (handleLsr (.zeroPage b) s).finish

/-- 0x56, ZeroPageX operand. -/
def execLsrZeroPageX (b : Byte) (s : State) : Host.Outcome State Fault Refusal := (handleLsr (.zeroPageX b) s).finish

/-- 0x4E, Absolute operand. -/
def execLsrAbsolute (w : Word) (s : State) : Host.Outcome State Fault Refusal := (handleLsr (.absolute w) s).finish

/-- 0x5E, AbsoluteX operand. -/
def execLsrAbsoluteX (w : Word) (s : State) : Host.Outcome State Fault Refusal := (handleLsr (.absoluteX w) s).finish

/-! ROL, one meaning per row of the table (R90). -/

/-- 0x2A, accumulator operand. -/
def execRolAccumulator (s : State) : Host.Outcome State Fault Refusal := (handleRol .accumulator s).finish

/-- 0x26, ZeroPage operand. -/
def execRolZeroPage (b : Byte) (s : State) : Host.Outcome State Fault Refusal := (handleRol (.zeroPage b) s).finish

/-- 0x36, ZeroPageX operand. -/
def execRolZeroPageX (b : Byte) (s : State) : Host.Outcome State Fault Refusal := (handleRol (.zeroPageX b) s).finish

/-- 0x2E, Absolute operand. -/
def execRolAbsolute (w : Word) (s : State) : Host.Outcome State Fault Refusal := (handleRol (.absolute w) s).finish

/-- 0x3E, AbsoluteX operand. -/
def execRolAbsoluteX (w : Word) (s : State) : Host.Outcome State Fault Refusal := (handleRol (.absoluteX w) s).finish

/-! ROR, one meaning per row of the table (R91). -/

/-- 0x6A, accumulator operand. -/
def execRorAccumulator (s : State) : Host.Outcome State Fault Refusal := (handleRor .accumulator s).finish

/-- 0x66, ZeroPage operand. -/
def execRorZeroPage (b : Byte) (s : State) : Host.Outcome State Fault Refusal := (handleRor (.zeroPage b) s).finish

/-- 0x76, ZeroPageX operand. -/
def execRorZeroPageX (b : Byte) (s : State) : Host.Outcome State Fault Refusal := (handleRor (.zeroPageX b) s).finish

/-- 0x6E, Absolute operand. -/
def execRorAbsolute (w : Word) (s : State) : Host.Outcome State Fault Refusal := (handleRor (.absolute w) s).finish

/-- 0x7E, AbsoluteX operand. -/
def execRorAbsoluteX (w : Word) (s : State) : Host.Outcome State Fault Refusal := (handleRor (.absoluteX w) s).finish

end Sys2Proof.Machine
end

