-- ==== Sys2Proof/Machine/Dispatch.lean ====
section
/-! DEFINITION. exec: one arm per constructor of Instr, each a direct call of its meaning. -/

namespace Sys2Proof.Machine

def exec (i : Instr) (s : State) : Host.Outcome State Fault Refusal :=
  match i with
  | .ldaImmediate v => Sys2Proof.Machine.execLdaImmediate v s
  | .ldaZeroPage b => Sys2Proof.Machine.execLdaZeroPage b s
  | .ldaZeroPageX b => Sys2Proof.Machine.execLdaZeroPageX b s
  | .ldaAbsolute w => Sys2Proof.Machine.execLdaAbsolute w s
  | .ldaAbsoluteX w => Sys2Proof.Machine.execLdaAbsoluteX w s
  | .ldaAbsoluteY w => Sys2Proof.Machine.execLdaAbsoluteY w s
  | .ldaIndirectX b => Sys2Proof.Machine.execLdaIndirectX b s
  | .ldaIndirectY b => Sys2Proof.Machine.execLdaIndirectY b s
  | .andImmediate v => Sys2Proof.Machine.execAndImmediate v s
  | .andZeroPage b => Sys2Proof.Machine.execAndZeroPage b s
  | .andZeroPageX b => Sys2Proof.Machine.execAndZeroPageX b s
  | .andAbsolute w => Sys2Proof.Machine.execAndAbsolute w s
  | .andAbsoluteX w => Sys2Proof.Machine.execAndAbsoluteX w s
  | .andAbsoluteY w => Sys2Proof.Machine.execAndAbsoluteY w s
  | .andIndirectX b => Sys2Proof.Machine.execAndIndirectX b s
  | .andIndirectY b => Sys2Proof.Machine.execAndIndirectY b s
  | .oraImmediate v => Sys2Proof.Machine.execOraImmediate v s
  | .oraZeroPage b => Sys2Proof.Machine.execOraZeroPage b s
  | .oraZeroPageX b => Sys2Proof.Machine.execOraZeroPageX b s
  | .oraAbsolute w => Sys2Proof.Machine.execOraAbsolute w s
  | .oraAbsoluteX w => Sys2Proof.Machine.execOraAbsoluteX w s
  | .oraAbsoluteY w => Sys2Proof.Machine.execOraAbsoluteY w s
  | .oraIndirectX b => Sys2Proof.Machine.execOraIndirectX b s
  | .oraIndirectY b => Sys2Proof.Machine.execOraIndirectY b s
  | .aslAccumulator => Sys2Proof.Machine.execAslAccumulator s
  | .aslZeroPage b => Sys2Proof.Machine.execAslZeroPage b s
  | .aslZeroPageX b => Sys2Proof.Machine.execAslZeroPageX b s
  | .aslAbsolute w => Sys2Proof.Machine.execAslAbsolute w s
  | .aslAbsoluteX w => Sys2Proof.Machine.execAslAbsoluteX w s
  | .tax => Sys2Proof.Machine.execTax s
  | .inx => Sys2Proof.Machine.execInx s
  | .bcc b => Sys2Proof.Machine.execBcc b s
  | .brk => Sys2Proof.Machine.execBrk s
  | .ldxImmediate v => Sys2Proof.Machine.execLdxImmediate v s
  | .ldxZeroPage b => Sys2Proof.Machine.execLdxZeroPage b s
  | .ldxZeroPageY b => Sys2Proof.Machine.execLdxZeroPageY b s
  | .ldxAbsolute w => Sys2Proof.Machine.execLdxAbsolute w s
  | .ldxAbsoluteY w => Sys2Proof.Machine.execLdxAbsoluteY w s
  | .ldyImmediate v => Sys2Proof.Machine.execLdyImmediate v s
  | .ldyZeroPage b => Sys2Proof.Machine.execLdyZeroPage b s
  | .ldyZeroPageX b => Sys2Proof.Machine.execLdyZeroPageX b s
  | .ldyAbsolute w => Sys2Proof.Machine.execLdyAbsolute w s
  | .ldyAbsoluteX w => Sys2Proof.Machine.execLdyAbsoluteX w s
  | .staZeroPage b => Sys2Proof.Machine.execStaZeroPage b s
  | .staZeroPageX b => Sys2Proof.Machine.execStaZeroPageX b s
  | .staAbsolute w => Sys2Proof.Machine.execStaAbsolute w s
  | .staAbsoluteX w => Sys2Proof.Machine.execStaAbsoluteX w s
  | .staAbsoluteY w => Sys2Proof.Machine.execStaAbsoluteY w s
  | .staIndirectX b => Sys2Proof.Machine.execStaIndirectX b s
  | .staIndirectY b => Sys2Proof.Machine.execStaIndirectY b s
  | .stxZeroPage b => Sys2Proof.Machine.execStxZeroPage b s
  | .stxZeroPageY b => Sys2Proof.Machine.execStxZeroPageY b s
  | .stxAbsolute w => Sys2Proof.Machine.execStxAbsolute w s
  | .styZeroPage b => Sys2Proof.Machine.execStyZeroPage b s
  | .styZeroPageX b => Sys2Proof.Machine.execStyZeroPageX b s
  | .styAbsolute w => Sys2Proof.Machine.execStyAbsolute w s
  | .tay => Sys2Proof.Machine.execTay s
  | .txa => Sys2Proof.Machine.execTxa s
  | .tya => Sys2Proof.Machine.execTya s
  | .eorImmediate v => Sys2Proof.Machine.execEorImmediate v s
  | .eorZeroPage b => Sys2Proof.Machine.execEorZeroPage b s
  | .eorZeroPageX b => Sys2Proof.Machine.execEorZeroPageX b s
  | .eorAbsolute w => Sys2Proof.Machine.execEorAbsolute w s
  | .eorAbsoluteX w => Sys2Proof.Machine.execEorAbsoluteX w s
  | .eorAbsoluteY w => Sys2Proof.Machine.execEorAbsoluteY w s
  | .eorIndirectX b => Sys2Proof.Machine.execEorIndirectX b s
  | .eorIndirectY b => Sys2Proof.Machine.execEorIndirectY b s
  | .lsrAccumulator => Sys2Proof.Machine.execLsrAccumulator s
  | .lsrZeroPage b => Sys2Proof.Machine.execLsrZeroPage b s
  | .lsrZeroPageX b => Sys2Proof.Machine.execLsrZeroPageX b s
  | .lsrAbsolute w => Sys2Proof.Machine.execLsrAbsolute w s
  | .lsrAbsoluteX w => Sys2Proof.Machine.execLsrAbsoluteX w s
  | .rolAccumulator => Sys2Proof.Machine.execRolAccumulator s
  | .rolZeroPage b => Sys2Proof.Machine.execRolZeroPage b s
  | .rolZeroPageX b => Sys2Proof.Machine.execRolZeroPageX b s
  | .rolAbsolute w => Sys2Proof.Machine.execRolAbsolute w s
  | .rolAbsoluteX w => Sys2Proof.Machine.execRolAbsoluteX w s
  | .rorAccumulator => Sys2Proof.Machine.execRorAccumulator s
  | .rorZeroPage b => Sys2Proof.Machine.execRorZeroPage b s
  | .rorZeroPageX b => Sys2Proof.Machine.execRorZeroPageX b s
  | .rorAbsolute w => Sys2Proof.Machine.execRorAbsolute w s
  | .rorAbsoluteX w => Sys2Proof.Machine.execRorAbsoluteX w s
  | .iny => Sys2Proof.Machine.execIny s
  | .dex => Sys2Proof.Machine.execDex s
  | .dey => Sys2Proof.Machine.execDey s
  | .incZeroPage b => Sys2Proof.Machine.execIncZeroPage b s
  | .incZeroPageX b => Sys2Proof.Machine.execIncZeroPageX b s
  | .incAbsolute w => Sys2Proof.Machine.execIncAbsolute w s
  | .incAbsoluteX w => Sys2Proof.Machine.execIncAbsoluteX w s
  | .decZeroPage b => Sys2Proof.Machine.execDecZeroPage b s
  | .decZeroPageX b => Sys2Proof.Machine.execDecZeroPageX b s
  | .decAbsolute w => Sys2Proof.Machine.execDecAbsolute w s
  | .decAbsoluteX w => Sys2Proof.Machine.execDecAbsoluteX w s
  | .cmpImmediate v => Sys2Proof.Machine.execCmpImmediate v s
  | .cmpZeroPage b => Sys2Proof.Machine.execCmpZeroPage b s
  | .cmpZeroPageX b => Sys2Proof.Machine.execCmpZeroPageX b s
  | .cmpAbsolute w => Sys2Proof.Machine.execCmpAbsolute w s
  | .cmpAbsoluteX w => Sys2Proof.Machine.execCmpAbsoluteX w s
  | .cmpAbsoluteY w => Sys2Proof.Machine.execCmpAbsoluteY w s
  | .cmpIndirectX b => Sys2Proof.Machine.execCmpIndirectX b s
  | .cmpIndirectY b => Sys2Proof.Machine.execCmpIndirectY b s
  | .cpxImmediate v => Sys2Proof.Machine.execCpxImmediate v s
  | .cpxZeroPage b => Sys2Proof.Machine.execCpxZeroPage b s
  | .cpxAbsolute w => Sys2Proof.Machine.execCpxAbsolute w s
  | .cpyImmediate v => Sys2Proof.Machine.execCpyImmediate v s
  | .cpyZeroPage b => Sys2Proof.Machine.execCpyZeroPage b s
  | .cpyAbsolute w => Sys2Proof.Machine.execCpyAbsolute w s
  | .bcs b => Sys2Proof.Machine.execBcs b s
  | .beq b => Sys2Proof.Machine.execBeq b s
  | .bne b => Sys2Proof.Machine.execBne b s
  | .bmi b => Sys2Proof.Machine.execBmi b s
  | .bpl b => Sys2Proof.Machine.execBpl b s
  | .jmp w => Sys2Proof.Machine.execJmp w s
  | .nop => Sys2Proof.Machine.execNop s
  | .clc => Sys2Proof.Machine.execClc s
  | .sec => Sys2Proof.Machine.execSec s
  | .cli => Sys2Proof.Machine.execCli s
  | .sei => Sys2Proof.Machine.execSei s
  | .cld => Sys2Proof.Machine.execCld s
  | .sed => Sys2Proof.Machine.execSed s

end Sys2Proof.Machine
end

