-- ==== Sys2Proof/WellFormed.lean ====
section
/-! DEFINITION. What a well-formed instruction and a well-formed descriptor are. Every operand an `Instr` carries
has its field's full range, so an instruction is ill-formed only where the profile does not populate it. -/

namespace Sys2Proof

/-- The instruction's byte value is populated in the profile (30_encoding.md R52): every mnemonic in `extended`,
those the source names in `named` (R5). -/
def Instr.wellFormed (p : OpcodeProfile) (i : Instr) : Bool :=
  match p with
  | .named => i.mnemonic.inNamed
  | .extended => true

/-- A correctly built descriptor: its `bytes` is the length of its mode's format (R50), so in particular its mode
is not Unresolved (R70). -/
def Descriptor.wellFormed (d : Descriptor) : Bool :=
  match d.mode.format with
  | some f => d.bytes == f.length
  | none => false

end Sys2Proof
end

