-- ==== Sys2Proof/Decode.lean ====
section
/-! DEFINITION. The dispatch table of 30_encoding.md R53 and R54, the decoder over it (R52, R57), total on any
bytes and rejecting by name, and after it the encoder (R49 to R51). -/

namespace Sys2Proof

open Sys2Proof.Machine (lo hi concat)

/-- A descriptor's handler reference (R52), as the constructor it selects: with no operand, with the operand
byte, or with the operand word (formats F1, F2, F3 of R49). -/
inductive Handler where
  | f1 (i : Instr)
  | f2 (mk : Byte → Instr)
  | f3 (mk : Word → Instr)

/-- One populated byte value. `profile` is the smaller of the profiles that populate it: `named` rows stand in
both (R52). -/
structure TableRow where
  code    : Byte
  desc    : Descriptor
  profile : OpcodeProfile
  handler : Handler

def TableRow.of (code : Byte) (m : Mnemonic) (mode : AddressMode) (bytes cycles : Nat) (p : OpcodeProfile)
    (h : Handler) : TableRow :=
  ⟨code, ⟨m, mode, bytes, cycles⟩, p, h⟩

/-- R53: the rows of LDA. -/
def namedLdaRows : List TableRow := [
  .of 0xA9 .lda .immediate 2 2 .named (.f2 .ldaImmediate),
  .of 0xA5 .lda .zeroPage 2 3 .named (.f2 .ldaZeroPage),
  .of 0xB5 .lda .zeroPageX 2 4 .named (.f2 .ldaZeroPageX),
  .of 0xAD .lda .absolute 3 4 .named (.f3 .ldaAbsolute),
  .of 0xBD .lda .absoluteX 3 4 .named (.f3 .ldaAbsoluteX),
  .of 0xB9 .lda .absoluteY 3 4 .named (.f3 .ldaAbsoluteY),
  .of 0xA1 .lda .indirectX 2 6 .named (.f2 .ldaIndirectX),
  .of 0xB1 .lda .indirectY 2 5 .named (.f2 .ldaIndirectY)]

/-- R53: the rows of AND. -/
def namedAndRows : List TableRow := [
  .of 0x29 .and .immediate 2 2 .named (.f2 .andImmediate),
  .of 0x25 .and .zeroPage 2 3 .named (.f2 .andZeroPage),
  .of 0x35 .and .zeroPageX 2 4 .named (.f2 .andZeroPageX),
  .of 0x2D .and .absolute 3 4 .named (.f3 .andAbsolute),
  .of 0x3D .and .absoluteX 3 4 .named (.f3 .andAbsoluteX),
  .of 0x39 .and .absoluteY 3 4 .named (.f3 .andAbsoluteY),
  .of 0x21 .and .indirectX 2 6 .named (.f2 .andIndirectX),
  .of 0x31 .and .indirectY 2 5 .named (.f2 .andIndirectY)]

/-- R53: the rows of ORA. -/
def namedOraRows : List TableRow := [
  .of 0x09 .ora .immediate 2 2 .named (.f2 .oraImmediate),
  .of 0x05 .ora .zeroPage 2 3 .named (.f2 .oraZeroPage),
  .of 0x15 .ora .zeroPageX 2 4 .named (.f2 .oraZeroPageX),
  .of 0x0D .ora .absolute 3 4 .named (.f3 .oraAbsolute),
  .of 0x1D .ora .absoluteX 3 4 .named (.f3 .oraAbsoluteX),
  .of 0x19 .ora .absoluteY 3 4 .named (.f3 .oraAbsoluteY),
  .of 0x01 .ora .indirectX 2 6 .named (.f2 .oraIndirectX),
  .of 0x11 .ora .indirectY 2 5 .named (.f2 .oraIndirectY)]

/-- R53: the rows of ASL, TAX, INX, BCC, BRK. -/
def namedRestRows : List TableRow := [
  .of 0x0A .asl .accumulator 1 2 .named (.f1 .aslAccumulator),
  .of 0x06 .asl .zeroPage 2 5 .named (.f2 .aslZeroPage),
  .of 0x16 .asl .zeroPageX 2 6 .named (.f2 .aslZeroPageX),
  .of 0x0E .asl .absolute 3 6 .named (.f3 .aslAbsolute),
  .of 0x1E .asl .absoluteX 3 7 .named (.f3 .aslAbsoluteX),
  .of 0xAA .tax .implied 1 2 .named (.f1 .tax),
  .of 0xE8 .inx .implied 1 2 .named (.f1 .inx),
  .of 0x90 .bcc .immediate 2 2 .named (.f2 .bcc),
  .of 0x00 .brk .implied 1 7 .named (.f1 .brk)]

/-- R54: the rows of LDX, LDY. -/
def extLoadsRows : List TableRow := [
  .of 0xA2 .ldx .immediate 2 2 .extended (.f2 .ldxImmediate),
  .of 0xA6 .ldx .zeroPage 2 3 .extended (.f2 .ldxZeroPage),
  .of 0xB6 .ldx .zeroPageY 2 4 .extended (.f2 .ldxZeroPageY),
  .of 0xAE .ldx .absolute 3 4 .extended (.f3 .ldxAbsolute),
  .of 0xBE .ldx .absoluteY 3 4 .extended (.f3 .ldxAbsoluteY),
  .of 0xA0 .ldy .immediate 2 2 .extended (.f2 .ldyImmediate),
  .of 0xA4 .ldy .zeroPage 2 3 .extended (.f2 .ldyZeroPage),
  .of 0xB4 .ldy .zeroPageX 2 4 .extended (.f2 .ldyZeroPageX),
  .of 0xAC .ldy .absolute 3 4 .extended (.f3 .ldyAbsolute),
  .of 0xBC .ldy .absoluteX 3 4 .extended (.f3 .ldyAbsoluteX)]

/-- R54: the rows of STA, STX, STY. -/
def extStoresRows : List TableRow := [
  .of 0x85 .sta .zeroPage 2 3 .extended (.f2 .staZeroPage),
  .of 0x95 .sta .zeroPageX 2 4 .extended (.f2 .staZeroPageX),
  .of 0x8D .sta .absolute 3 4 .extended (.f3 .staAbsolute),
  .of 0x9D .sta .absoluteX 3 5 .extended (.f3 .staAbsoluteX),
  .of 0x99 .sta .absoluteY 3 5 .extended (.f3 .staAbsoluteY),
  .of 0x81 .sta .indirectX 2 6 .extended (.f2 .staIndirectX),
  .of 0x91 .sta .indirectY 2 6 .extended (.f2 .staIndirectY),
  .of 0x86 .stx .zeroPage 2 3 .extended (.f2 .stxZeroPage),
  .of 0x96 .stx .zeroPageY 2 4 .extended (.f2 .stxZeroPageY),
  .of 0x8E .stx .absolute 3 4 .extended (.f3 .stxAbsolute),
  .of 0x84 .sty .zeroPage 2 3 .extended (.f2 .styZeroPage),
  .of 0x94 .sty .zeroPageX 2 4 .extended (.f2 .styZeroPageX),
  .of 0x8C .sty .absolute 3 4 .extended (.f3 .styAbsolute)]

/-- R54: the rows of TAY, TXA, TYA. -/
def extTransfersRows : List TableRow := [
  .of 0xA8 .tay .implied 1 2 .extended (.f1 .tay),
  .of 0x8A .txa .implied 1 2 .extended (.f1 .txa),
  .of 0x98 .tya .implied 1 2 .extended (.f1 .tya)]

/-- R54: the rows of EOR. -/
def extEorRows : List TableRow := [
  .of 0x49 .eor .immediate 2 2 .extended (.f2 .eorImmediate),
  .of 0x45 .eor .zeroPage 2 3 .extended (.f2 .eorZeroPage),
  .of 0x55 .eor .zeroPageX 2 4 .extended (.f2 .eorZeroPageX),
  .of 0x4D .eor .absolute 3 4 .extended (.f3 .eorAbsolute),
  .of 0x5D .eor .absoluteX 3 4 .extended (.f3 .eorAbsoluteX),
  .of 0x59 .eor .absoluteY 3 4 .extended (.f3 .eorAbsoluteY),
  .of 0x41 .eor .indirectX 2 6 .extended (.f2 .eorIndirectX),
  .of 0x51 .eor .indirectY 2 5 .extended (.f2 .eorIndirectY)]

/-- R54: the rows of LSR, ROL, ROR. -/
def extShiftsRows : List TableRow := [
  .of 0x4A .lsr .accumulator 1 2 .extended (.f1 .lsrAccumulator),
  .of 0x46 .lsr .zeroPage 2 5 .extended (.f2 .lsrZeroPage),
  .of 0x56 .lsr .zeroPageX 2 6 .extended (.f2 .lsrZeroPageX),
  .of 0x4E .lsr .absolute 3 6 .extended (.f3 .lsrAbsolute),
  .of 0x5E .lsr .absoluteX 3 7 .extended (.f3 .lsrAbsoluteX),
  .of 0x2A .rol .accumulator 1 2 .extended (.f1 .rolAccumulator),
  .of 0x26 .rol .zeroPage 2 5 .extended (.f2 .rolZeroPage),
  .of 0x36 .rol .zeroPageX 2 6 .extended (.f2 .rolZeroPageX),
  .of 0x2E .rol .absolute 3 6 .extended (.f3 .rolAbsolute),
  .of 0x3E .rol .absoluteX 3 7 .extended (.f3 .rolAbsoluteX),
  .of 0x6A .ror .accumulator 1 2 .extended (.f1 .rorAccumulator),
  .of 0x66 .ror .zeroPage 2 5 .extended (.f2 .rorZeroPage),
  .of 0x76 .ror .zeroPageX 2 6 .extended (.f2 .rorZeroPageX),
  .of 0x6E .ror .absolute 3 6 .extended (.f3 .rorAbsolute),
  .of 0x7E .ror .absoluteX 3 7 .extended (.f3 .rorAbsoluteX)]

/-- R54: the rows of INY, DEX, DEY, INC, DEC. -/
def extCountsRows : List TableRow := [
  .of 0xC8 .iny .implied 1 2 .extended (.f1 .iny),
  .of 0xCA .dex .implied 1 2 .extended (.f1 .dex),
  .of 0x88 .dey .implied 1 2 .extended (.f1 .dey),
  .of 0xE6 .inc .zeroPage 2 5 .extended (.f2 .incZeroPage),
  .of 0xF6 .inc .zeroPageX 2 6 .extended (.f2 .incZeroPageX),
  .of 0xEE .inc .absolute 3 6 .extended (.f3 .incAbsolute),
  .of 0xFE .inc .absoluteX 3 7 .extended (.f3 .incAbsoluteX),
  .of 0xC6 .dec .zeroPage 2 5 .extended (.f2 .decZeroPage),
  .of 0xD6 .dec .zeroPageX 2 6 .extended (.f2 .decZeroPageX),
  .of 0xCE .dec .absolute 3 6 .extended (.f3 .decAbsolute),
  .of 0xDE .dec .absoluteX 3 7 .extended (.f3 .decAbsoluteX)]

/-- R54: the rows of CMP, CPX, CPY. -/
def extComparesRows : List TableRow := [
  .of 0xC9 .cmp .immediate 2 2 .extended (.f2 .cmpImmediate),
  .of 0xC5 .cmp .zeroPage 2 3 .extended (.f2 .cmpZeroPage),
  .of 0xD5 .cmp .zeroPageX 2 4 .extended (.f2 .cmpZeroPageX),
  .of 0xCD .cmp .absolute 3 4 .extended (.f3 .cmpAbsolute),
  .of 0xDD .cmp .absoluteX 3 4 .extended (.f3 .cmpAbsoluteX),
  .of 0xD9 .cmp .absoluteY 3 4 .extended (.f3 .cmpAbsoluteY),
  .of 0xC1 .cmp .indirectX 2 6 .extended (.f2 .cmpIndirectX),
  .of 0xD1 .cmp .indirectY 2 5 .extended (.f2 .cmpIndirectY),
  .of 0xE0 .cpx .immediate 2 2 .extended (.f2 .cpxImmediate),
  .of 0xE4 .cpx .zeroPage 2 3 .extended (.f2 .cpxZeroPage),
  .of 0xEC .cpx .absolute 3 4 .extended (.f3 .cpxAbsolute),
  .of 0xC0 .cpy .immediate 2 2 .extended (.f2 .cpyImmediate),
  .of 0xC4 .cpy .zeroPage 2 3 .extended (.f2 .cpyZeroPage),
  .of 0xCC .cpy .absolute 3 4 .extended (.f3 .cpyAbsolute)]

/-- R54: the rows of BCS, BEQ, BNE, BMI, BPL, JMP, NOP, CLC, SEC, CLI, SEI, CLD, SED. -/
def extControlRows : List TableRow := [
  .of 0xB0 .bcs .immediate 2 2 .extended (.f2 .bcs),
  .of 0xF0 .beq .immediate 2 2 .extended (.f2 .beq),
  .of 0xD0 .bne .immediate 2 2 .extended (.f2 .bne),
  .of 0x30 .bmi .immediate 2 2 .extended (.f2 .bmi),
  .of 0x10 .bpl .immediate 2 2 .extended (.f2 .bpl),
  .of 0x4C .jmp .absolute 3 3 .extended (.f3 .jmp),
  .of 0xEA .nop .implied 1 2 .extended (.f1 .nop),
  .of 0x18 .clc .implied 1 2 .extended (.f1 .clc),
  .of 0x38 .sec .implied 1 2 .extended (.f1 .sec),
  .of 0x58 .cli .implied 1 2 .extended (.f1 .cli),
  .of 0x78 .sei .implied 1 2 .extended (.f1 .sei),
  .of 0xD8 .cld .implied 1 2 .extended (.f1 .cld),
  .of 0xF8 .sed .implied 1 2 .extended (.f1 .sed)]

/-- The whole table (R52): R53's 33 rows, then R54's 87. It is a constant, not state (R26). -/
def dispatchTable : List TableRow :=
  namedLdaRows ++ namedAndRows ++ namedOraRows ++ namedRestRows ++
  extLoadsRows ++ extStoresRows ++ extTransfersRows ++ extEorRows ++
  extShiftsRows ++ extCountsRows ++ extComparesRows ++ extControlRows

/-- The row of a byte value, whatever the profile. -/
def findRow (code : Byte) : Option TableRow := dispatchTable.find? fun r => r.code == code

/-- Whether a row is populated in a profile: R53's rows in both, R54's in `extended` alone (R52). -/
def TableRow.populatedIn (r : TableRow) : OpcodeProfile → Bool
  | .named => r.profile == .named
  | .extended => true

/-- R52: `table(opcode_profile)[code]`, a row or "absent". -/
def lookup (p : OpcodeProfile) (code : Byte) : Option TableRow :=
  match findRow code with
  | some r => if r.populatedIn p then some r else none
  | none => none

/-- Why bytes hold no instruction. -/
inductive DecodeError where
  /-- no byte to read -/
  | noBytes
  /-- the opcode byte is unpopulated in the profile: the loop raises IllegalInstruction (R55, R126) -/
  | absent (code : Byte)
  /-- the byte list ends inside the operand; a fetch from the core's memory never does (R37) -/
  | truncated (code : Byte)
  deriving DecidableEq, Repr

/-- R51: the operand after the opcode byte; a word has its low byte first (R36). -/
def Handler.assemble (code : Byte) : Handler → List Byte → Except DecodeError (Instr × List Byte)
  | .f1 i, rest => .ok (i, rest)
  | .f2 mk, b :: rest => .ok (mk b, rest)
  | .f3 mk, l :: h :: rest => .ok (mk (concat h l), rest)
  | .f2 _, [] => .error (.truncated code)
  | .f3 _, [] => .error (.truncated code)
  | .f3 _, [_] => .error (.truncated code)

/-- The decoder: one table lookup on the opcode byte alone (R57), then the operand bytes of the row's format.
It answers the instruction and the bytes after it. -/
def decode (p : OpcodeProfile) : List Byte → Except DecodeError (Instr × List Byte)
  | [] => .error .noBytes
  | code :: rest =>
    match lookup p code with
    | none => .error (.absent code)
    | some r => r.handler.assemble code rest

/-! ### The encoder -/

/-- The opcode byte of an instruction: the first column of R53 and R54. -/
def Instr.opcode : Instr → Byte
  | .ldaImmediate _ => 0xA9
  | .ldaZeroPage _ => 0xA5
  | .ldaZeroPageX _ => 0xB5
  | .ldaAbsolute _ => 0xAD
  | .ldaAbsoluteX _ => 0xBD
  | .ldaAbsoluteY _ => 0xB9
  | .ldaIndirectX _ => 0xA1
  | .ldaIndirectY _ => 0xB1
  | .andImmediate _ => 0x29
  | .andZeroPage _ => 0x25
  | .andZeroPageX _ => 0x35
  | .andAbsolute _ => 0x2D
  | .andAbsoluteX _ => 0x3D
  | .andAbsoluteY _ => 0x39
  | .andIndirectX _ => 0x21
  | .andIndirectY _ => 0x31
  | .oraImmediate _ => 0x09
  | .oraZeroPage _ => 0x05
  | .oraZeroPageX _ => 0x15
  | .oraAbsolute _ => 0x0D
  | .oraAbsoluteX _ => 0x1D
  | .oraAbsoluteY _ => 0x19
  | .oraIndirectX _ => 0x01
  | .oraIndirectY _ => 0x11
  | .aslAccumulator => 0x0A
  | .aslZeroPage _ => 0x06
  | .aslZeroPageX _ => 0x16
  | .aslAbsolute _ => 0x0E
  | .aslAbsoluteX _ => 0x1E
  | .tax => 0xAA
  | .inx => 0xE8
  | .bcc _ => 0x90
  | .brk => 0x00
  | .ldxImmediate _ => 0xA2
  | .ldxZeroPage _ => 0xA6
  | .ldxZeroPageY _ => 0xB6
  | .ldxAbsolute _ => 0xAE
  | .ldxAbsoluteY _ => 0xBE
  | .ldyImmediate _ => 0xA0
  | .ldyZeroPage _ => 0xA4
  | .ldyZeroPageX _ => 0xB4
  | .ldyAbsolute _ => 0xAC
  | .ldyAbsoluteX _ => 0xBC
  | .staZeroPage _ => 0x85
  | .staZeroPageX _ => 0x95
  | .staAbsolute _ => 0x8D
  | .staAbsoluteX _ => 0x9D
  | .staAbsoluteY _ => 0x99
  | .staIndirectX _ => 0x81
  | .staIndirectY _ => 0x91
  | .stxZeroPage _ => 0x86
  | .stxZeroPageY _ => 0x96
  | .stxAbsolute _ => 0x8E
  | .styZeroPage _ => 0x84
  | .styZeroPageX _ => 0x94
  | .styAbsolute _ => 0x8C
  | .tay => 0xA8
  | .txa => 0x8A
  | .tya => 0x98
  | .eorImmediate _ => 0x49
  | .eorZeroPage _ => 0x45
  | .eorZeroPageX _ => 0x55
  | .eorAbsolute _ => 0x4D
  | .eorAbsoluteX _ => 0x5D
  | .eorAbsoluteY _ => 0x59
  | .eorIndirectX _ => 0x41
  | .eorIndirectY _ => 0x51
  | .lsrAccumulator => 0x4A
  | .lsrZeroPage _ => 0x46
  | .lsrZeroPageX _ => 0x56
  | .lsrAbsolute _ => 0x4E
  | .lsrAbsoluteX _ => 0x5E
  | .rolAccumulator => 0x2A
  | .rolZeroPage _ => 0x26
  | .rolZeroPageX _ => 0x36
  | .rolAbsolute _ => 0x2E
  | .rolAbsoluteX _ => 0x3E
  | .rorAccumulator => 0x6A
  | .rorZeroPage _ => 0x66
  | .rorZeroPageX _ => 0x76
  | .rorAbsolute _ => 0x6E
  | .rorAbsoluteX _ => 0x7E
  | .iny => 0xC8
  | .dex => 0xCA
  | .dey => 0x88
  | .incZeroPage _ => 0xE6
  | .incZeroPageX _ => 0xF6
  | .incAbsolute _ => 0xEE
  | .incAbsoluteX _ => 0xFE
  | .decZeroPage _ => 0xC6
  | .decZeroPageX _ => 0xD6
  | .decAbsolute _ => 0xCE
  | .decAbsoluteX _ => 0xDE
  | .cmpImmediate _ => 0xC9
  | .cmpZeroPage _ => 0xC5
  | .cmpZeroPageX _ => 0xD5
  | .cmpAbsolute _ => 0xCD
  | .cmpAbsoluteX _ => 0xDD
  | .cmpAbsoluteY _ => 0xD9
  | .cmpIndirectX _ => 0xC1
  | .cmpIndirectY _ => 0xD1
  | .cpxImmediate _ => 0xE0
  | .cpxZeroPage _ => 0xE4
  | .cpxAbsolute _ => 0xEC
  | .cpyImmediate _ => 0xC0
  | .cpyZeroPage _ => 0xC4
  | .cpyAbsolute _ => 0xCC
  | .bcs _ => 0xB0
  | .beq _ => 0xF0
  | .bne _ => 0xD0
  | .bmi _ => 0x30
  | .bpl _ => 0x10
  | .jmp _ => 0x4C
  | .nop => 0xEA
  | .clc => 0x18
  | .sec => 0x38
  | .cli => 0x58
  | .sei => 0x78
  | .cld => 0xD8
  | .sed => 0xF8

/-- The operand bytes after the opcode (R49): none, `b`, or the word's low byte and then its high byte. -/
def Operand.encoding : Operand → List Byte
  | .accumulator | .implied | .unresolved => []
  | .immediate b | .zeroPage b | .zeroPageX b | .zeroPageY b | .indirectX b | .indirectY b => [b]
  | .absolute w | .absoluteX w | .absoluteY w => [lo w, hi w]

/-- The bytes of an instruction, in address order (R49). -/
def encode (i : Instr) : List Byte := i.opcode :: i.operand.encoding

/-! ### A row of spec/opcode_table.json -/

/-- The three bytes an instruction word of `nbits` bits stands for: byte 0 is bits 7..0, byte 1 is bits 15..8,
byte 2 is bits 23..16; every bit at or above `nbits` is 0. -/
def wordBytes (nbits w : Nat) : List Byte :=
  let m := w % 2 ^ nbits
  [BitVec.ofNat 8 m, BitVec.ofNat 8 (m / 256), BitVec.ofNat 8 (m / 65536)]

/-- The instruction the decoder reads from a table word. The table's rows are those of the `extended` profile,
which holds the `named` rows too (R52). -/
def decodeTableWord (nbits w : Nat) : Option Instr :=
  match decode .extended (wordBytes nbits w) with
  | .ok (i, _) => some i
  | .error _ => none

end Sys2Proof
end

