-- ==== Sys2Proof/Machine/Loop.lean ====
section
/-! DEFINITION. The parts of the execution loop that step calls (44_execution_loop.md R119, R121): fetching the
bytes at `pc`, the fault of a halted state, the halt on an absent opcode, and the placing of an instruction word
where the loop fetches next. -/

namespace Sys2Proof.Machine

/-- The bytes at `pc` and the two addresses after it, wrapping (R18, R37). No read has a side effect (R39), so
reading past a shorter instruction is unobservable (log entry 8). -/
def State.fetchBytes (s : State) : List Byte := [s.readByte s.pc, s.readByte (s.pc + 1), s.readByte (s.pc + 2)]

/-- The instruction at `pc` under the instance's profile, or why there is none (R52, R55). -/
def State.fetchInstr (s : State) : Except DecodeError Instr :=
  match decode s.config.opcodeProfile s.fetchBytes with
  | .ok (i, _) => .ok i
  | .error e => .error e

/-- R119: `pc` moves past the opcode byte before the lookup. -/
def State.afterOpcode (s : State) : State := s.advance 1

/-- R126: the loop raises IllegalInstruction; only `pc` and `run` change. -/
def State.illegalOpcode (s : State) : State := s.afterOpcode.raise .illegalInstruction

/-- R121: no step leaves a terminal state (log entry 6). -/
def HaltReason.noStep : HaltReason → Fault
  | .success => .noStepAfterSuccess
  | .fatal k => .noStepAfterFatal k

/-- The profile under which the byte value is populated: the instance's own where it populates the byte, otherwise
`extended`. -/
def profileFor (p : OpcodeProfile) (code : Byte) : OpcodeProfile :=
  match lookup p code with
  | some _ => p
  | none => .extended

/-- Store the word's three bytes at `pc`, and select what fetching them as an instruction takes: the run state
Running, and a profile that populates the opcode byte (log entry 4). -/
def State.placeWord (s : State) (nbits w : Nat) : State :=
  { s with
    mem := Memory.writeBytes s.mem s.pc (wordBytes nbits w)
    run := .running
    config := { s.config with
      opcodeProfile := profileFor s.config.opcodeProfile (BitVec.ofNat 8 (w % 2 ^ nbits)) } }

end Sys2Proof.Machine
end

