-- ==== Sys2Proof/Machine/Step.lean ====
section
/-! DEFINITION. One step of the execution loop (44_execution_loop.md R119 to R121). -/

namespace Sys2Proof.Machine

/-- R119: from Running, fetch, advance `pc` by one, look up, and run the handler or halt Fatal with
IllegalInstruction. From a halted state there is no step (R121). -/
def step (s : State) : Host.Outcome State Fault Refusal :=
  match s.run with
  | .halted r => .fault r.noStep
  | .running =>
    match s.fetchInstr with
    | .ok i => exec i s.afterOpcode
    | .error _ => .next s.illegalOpcode

/-- The state in which the next step fetches and runs the instruction whose table word is `w`. -/
def State.withFetchWord (s : State) (nbits w : Nat) : State := s.placeWord nbits w

end Sys2Proof.Machine
end

