-- ==== Sys2Proof/Machine/Accesses.lean ====
section
/-! DEFINITION. The memory accesses of one step as events, in the order of 20_memory.md R48. No access has a side
effect (R39), so these events change nothing: they say what one step reads and writes. -/

namespace Sys2Proof.Machine

/-- The five groups of R48, in its order. -/
inductive AccessKind where
  | opcodeFetch | operandRead | pointerRead | dataRead | dataWrite
  deriving DecidableEq, Repr

/-- One access, always one byte wide (R38). -/
structure Access where
  kind  : AccessKind
  addr  : Word
  value : Byte
  deriving DecidableEq, Repr

def State.readAccess (s : State) (k : AccessKind) (a : Word) : Access := ⟨k, a, s.readByte a⟩

/-- The resolver's operand reads, low byte before high byte, in the state a handler starts in. The resolver reads
nothing for Immediate (R61): that byte is the handler's data read (log entry 12). -/
def State.operandAccesses (s : State) (m : AddressMode) : List Access :=
  match m with
  | .zeroPage | .zeroPageX | .zeroPageY | .indirectX | .indirectY => [s.readAccess .operandRead s.pc]
  | .absolute | .absoluteX | .absoluteY => [s.readAccess .operandRead s.pc, s.readAccess .operandRead (s.pc + 1)]
  | .accumulator | .implied | .immediate | .unresolved => []

/-- The pointer reads of IndirectX and IndirectY, low byte before high byte (R68, R69). -/
def State.pointerAccesses (s : State) (o : Operand) : List Access :=
  match o with
  | .indirectX b =>
    [s.readAccess .pointerRead (zext16 (b + s.x)), s.readAccess .pointerRead (zext16 (b + s.x + 1))]
  | .indirectY b =>
    [s.readAccess .pointerRead (zext16 b),
      s.readAccess .pointerRead
        (match s.config.indirectYPointerWrap with
          | .page0 => zext16 (b + 1)
          | .linear => zext16 b + 1)]
  | _ => []

/-- Whether the handler reads the byte at its effective address. -/
def readsData : Mnemonic → Bool
  | .lda | .ldx | .ldy | .and | .ora | .eor | .asl | .lsr | .rol | .ror | .inc | .dec | .cmp | .cpx | .cpy
  | .bcc | .bcs | .beq | .bne | .bmi | .bpl => true
  | .sta | .stx | .sty | .tax | .tay | .txa | .tya | .inx | .iny | .dex | .dey | .jmp | .brk | .nop
  | .clc | .sec | .cli | .sei | .cld | .sed => false

/-- The byte the handler writes at its effective address, from the byte there before; none for a mnemonic that
writes no memory (R78 to R80, R88 to R91, R96, R97). -/
def State.storedByte (s : State) (m : Mnemonic) (old : Byte) : Option Byte :=
  match m with
  | .sta => some s.a
  | .stx => some s.x
  | .sty => some s.y
  | .asl => some (ShiftOp.asl.result s.p.c old)
  | .lsr => some (ShiftOp.lsr.result s.p.c old)
  | .rol => some (ShiftOp.rol.result s.p.c old)
  | .ror => some (ShiftOp.ror.result s.p.c old)
  | .inc => some (increment old)
  | .dec => some (decrement old)
  | .lda | .ldx | .ldy | .and | .ora | .eor | .cmp | .cpx | .cpy | .bcc | .bcs | .beq | .bne | .bmi | .bpl
  | .tax | .tay | .txa | .tya | .inx | .iny | .dex | .dey | .jmp | .brk | .nop
  | .clc | .sec | .cli | .sei | .cld | .sed => none

/-- The data read and the data write of an instruction, in the state its handler starts in. A mode with no address
has neither (R73). -/
def State.dataAccesses (s : State) (i : Instr) : List Access :=
  match resolve i.operand s with
  | .error _ => []
  | .ok ea =>
    (if readsData i.mnemonic then [s.readAccess .dataRead ea] else []) ++
      (match s.storedByte i.mnemonic (s.readByte ea) with
        | some b => [⟨.dataWrite, ea, b⟩]
        | none => [])

/-- The accesses of one step, in R48's order; none from a halted state, the opcode fetch alone where the opcode is
absent. -/
def stepAccesses (s : State) : List Access :=
  match s.run with
  | .halted _ => []
  | .running =>
    s.readAccess .opcodeFetch s.pc ::
      (match s.fetchInstr with
        | .error _ => []
        | .ok i =>
          s.afterOpcode.operandAccesses i.operand.mode ++ s.afterOpcode.pointerAccesses i.operand ++
            s.afterOpcode.dataAccesses i)

/-- The memory after the writes among some accesses. -/
def applyWrites (m : List Host.Cell) : List Access → List Host.Cell
  | [] => m
  | e :: rest => applyWrites (if e.kind = .dataWrite then Memory.write m e.addr e.value else m) rest

end Sys2Proof.Machine
end

