-- ==== Sys2Proof/Machine/HostOps.lean ====
section
/-! DEFINITION. The host control interface (00_scope.md R8, 70_reset_and_hazards.md R138 to R143): construction,
`reset()`, the memory writes, `load_program`, the packed read and write of P, the single step and the bounded run. -/

namespace Sys2Proof.Machine

/-- Direct construction (R138): the host gives the parameters, A, X, Y, P, `pc` and all 65536 bytes; the run state
is Running. -/
def State.construct (config : Config) (a x y : Byte) (p : Status) (pc : Word) (image : Word → Byte) : State where
  a := a
  x := x
  y := y
  p := p
  pc := pc
  mem := Memory.ofImage image
  run := .running
  config := config

/-- `reset()` (R139): allowed in every run state; memory is not changed (D12). -/
def State.hostReset (s : State) : State :=
  { s with a := 0, x := 0, y := 0, p := Status.clear, pc := s.read16 0xFFFC, run := .running }

/-- `write16(addr, word)` (R33), a host operation only (R35). -/
def State.write16 (s : State) (a w : Word) : State := { s with mem := Memory.write16 s.mem a w }

/-- `write_slice(start, bytes)` (R34); refused where the bytes would pass the top of memory (D15). -/
def State.writeSlice (s : State) (start : Word) (bytes : List Byte) : Host.Outcome State Fault Refusal :=
  if start.toNat + bytes.length ≤ 65536 then .next { s with mem := Memory.writeBytes s.mem start bytes }
  else .refused (.sliceOutOfRange start bytes.length)

/-- The program origin (R6, R41). -/
def programOrigin : Word := 0x8000

/-- The reset vector (R6, R41). -/
def resetVector : Word := 0xFFFC

/-- The second half of `load_program`: in reset-capable configurations the origin goes into the reset vector, after
the copy (R140, R141, D13). -/
def State.armVector (s : State) : State :=
  if s.config.resetCapable then s.write16 resetVector programOrigin else s

/-- `load_program(bytes)` (R140, R141). -/
def State.loadProgram (s : State) (bytes : List Byte) : Host.Outcome State Fault Refusal :=
  match s.writeSlice programOrigin bytes with
  | .next t => .next t.armVector
  | .fault f => .fault f
  | .refused r => .refused r

/-- The host's packed read of P (R20). -/
def State.readP (s : State) : Byte := s.p.pack

/-- The host's packed write of P (R20). -/
def State.writeP (s : State) (w : Byte) : State := s.setStatus (Status.unpack w)

/-- What the host may do to a constructed core between steps (R143). Reading A, X, Y, P, `pc`, `run` and memory is
reading the fields of State (log entry 10). -/
inductive HostCommand where
  | step
  | reset
  | write (a : Word) (b : Byte)
  | write16 (a w : Word)
  | writeSlice (start : Word) (bytes : List Byte)
  | loadProgram (bytes : List Byte)
  deriving DecidableEq, Repr

def State.command (s : State) : HostCommand → Host.Outcome State Fault Refusal
  | .step => Sys2Proof.Machine.step s
  | .reset => .next s.hostReset
  | .write a b => .next (s.writeByte a b)
  | .write16 a w => .next (s.write16 a w)
  | .writeSlice start bytes => s.writeSlice start bytes
  | .loadProgram bytes => s.loadProgram bytes

/-- The loop under the caller's fuel (R122, R143): steps until the run state is terminal or `fuel` steps are done.
Running out of fuel is not a state of the core: the answer is then still Running. -/
def State.runFor : Nat → State → State
  | 0, s => s
  | fuel + 1, s =>
    match Sys2Proof.Machine.step s with
    | .next t => State.runFor fuel t
    | .fault _ => s
    | .refused _ => s

end Sys2Proof.Machine
end

