-- ==== Sys2Proof/Safety.lean ====
section
/-! DEFINITION. What counts as a sound state and as a clean end of a run, in the terms the statements use. -/

namespace Sys2Proof.Machine

/-- The invariant of State: its memory list is canonical, so it stands for exactly one 64 KiB image (R29). -/
def State.Inv (s : State) : Prop := Memory.wf s.mem = true

/-- The one clean end of a run (93_implementation_defined.md K1.4). -/
def State.cleanEnd (s : State) : Prop := s.run = .halted .success

/-- A run that ended on a fatal condition (R125). -/
def State.fatalEnd (s : State) : Prop := ∃ k, s.run = .halted (.fatal k)

/-- The states that host commands can bring a state to, steps among them (R143). -/
inductive ReachableFrom (s : State) : State → Prop where
  | here : ReachableFrom s s
  | command {t u : State} (c : HostCommand) (h : ReachableFrom s t) (hc : t.command c = .next u) : ReachableFrom s u

end Sys2Proof.Machine
end

