-- ==== Sys2Proof/Certificates/Slice0/Obligations.lean ====
section
/-! DEFINITION. The statements for the provers. Those named for a rule of spec/ say what the rule says, in plain
arithmetic on numbers where the model uses bit vectors; OBLIGATIONS.json names each one's rules. -/

/-! ### Words the statements share -/

namespace Sys2Proof.Claims

open Sys2Proof Sys2Proof.Machine

/-- P after `SetZN(v)` (R22): Z iff v is 0, N iff bit 7 of v is 1, every other flag as it was. -/
def zn (p : Status) (v : Byte) : Status := { p with z := decide (v.toNat = 0), n := decide (128 ≤ v.toNat) }

/-- P after C is written and `SetZN(v)`. -/
def czn (p : Status) (c : Bool) (v : Byte) : Status := { zn p v with c := c }

/-- The instructions of a mnemonic are encoded by exactly these opcode bytes, each with its mode, and all of them
belong to the profile: `named` (and so `extended`), or `extended` alone. -/
def encodedAs (m : Mnemonic) (profile : OpcodeProfile) (rows : List (Byte × AddressMode)) : Prop :=
  (∀ code mode, (code, mode) ∈ rows ↔ ∃ i : Instr, i.mnemonic = m ∧ i.operand.mode = mode ∧ i.opcode = code) ∧
    ∀ i : Instr, i.mnemonic = m → (i.wellFormed .named = true ↔ profile = .named)

/-- `pc` after an instruction of the handler's length, the handler having started one past the opcode byte. -/
def pastOperand (s : State) (i : Instr) : Word := s.pc + BitVec.ofNat 16 ((encode i).length - 1)

/-- The instruction's bytes stand in memory from `pc` on, wrapping at the top. -/
def standsAt (i : Instr) (s : State) : Prop :=
  ∀ k b, (encode i)[k]? = some b → s.readByte (s.pc + BitVec.ofNat 16 k) = b

/-- The byte value has an instruction in the instance's profile. -/
def populated (s : State) (code : Byte) : Prop :=
  ∃ i : Instr, i.wellFormed s.config.opcodeProfile = true ∧ i.opcode = code

/-- The little-endian word whose low byte is at `a` and high byte at `b`, as a number. -/
def wordAt (s : State) (a b : Word) : Nat := (s.readByte a).toNat + 256 * (s.readByte b).toNat

/-- A mode's resolver answers the address `n`, for the operand whose bytes stand at `pc`. -/
def resolvesTo (s : State) (m : AddressMode) (n : Nat) : Prop :=
  ∃ ea, resolve (s.operandAtPc m) s = .ok ea ∧ ea.toNat = n

/-- The writers of a register, as R14 lists them. -/
def writesRegister : Register → Instr → Bool
  | .a, i =>
    [.lda, .and, .ora, .eor, .txa, .tya].contains i.mnemonic ||
      ([.asl, .lsr, .rol, .ror].contains i.mnemonic && i.operand.mode == .accumulator)
  | .x, i => [.tax, .inx, .ldx, .dex].contains i.mnemonic
  | .y, i => [.ldy, .iny, .dey, .tay].contains i.mnemonic

/-- The readers of a register, as R14 lists them. -/
def readsRegister : Register → Instr → Bool
  | .a, i =>
    [.and, .ora, .eor, .tax, .tay, .sta, .cmp].contains i.mnemonic ||
      ([.asl, .lsr, .rol, .ror].contains i.mnemonic && i.operand.mode == .accumulator)
  | .x, i =>
    [.inx, .dex, .stx, .cpx, .txa].contains i.mnemonic ||
      [.zeroPageX, .absoluteX, .indirectX].contains i.operand.mode
  | .y, i =>
    [.iny, .dey, .sty, .cpy, .tya].contains i.mnemonic ||
      [.zeroPageY, .absoluteY, .indirectY].contains i.operand.mode

/-- The writers of a flag, as R25's table lists them. -/
def writesFlag : Flag → Instr → Bool
  | .c, i => [.asl, .lsr, .rol, .ror, .cmp, .cpx, .cpy, .clc, .sec].contains i.mnemonic
  | .z, i =>
    [.lda, .ldx, .ldy, .and, .ora, .eor, .asl, .lsr, .rol, .ror, .tax, .tay, .txa, .tya, .inx, .iny, .dex, .dey,
      .inc, .dec, .cmp, .cpx, .cpy].contains i.mnemonic
  | .n, i =>
    [.lda, .ldx, .ldy, .and, .ora, .eor, .asl, .lsr, .rol, .ror, .tax, .tay, .txa, .tya, .inx, .iny, .dex, .dey,
      .inc, .dec, .cmp, .cpx, .cpy].contains i.mnemonic
  | .i, i => [.cli, .sei].contains i.mnemonic
  | .d, i => [.cld, .sed].contains i.mnemonic
  | .b, _ => false
  | .v, _ => false

/-- The forms that store to memory: the stores, and the read-modify-write forms. -/
def storesToMemory (i : Instr) : Bool :=
  [.sta, .stx, .sty, .inc, .dec].contains i.mnemonic ||
    ([.asl, .lsr, .rol, .ror].contains i.mnemonic && i.operand.mode != .accumulator)

/-- The condition of a branch (R102 to R107); none for the other mnemonics. -/
def branchTaken (p : Status) : Mnemonic → Option Bool
  | .bcc => some (!p.c)
  | .bcs => some p.c
  | .beq => some p.z
  | .bne => some (!p.z)
  | .bmi => some p.n
  | .bpl => some (!p.n)
  | _ => none

/-- `op + 2 + off` of R101, with `next = op + 2`: the offset byte is signed where the parameter says so. -/
def branchTarget (s : State) (next : Word) (b : Byte) : Word :=
  BitVec.ofNat 16 (next.toNat + b.toNat + if s.config.branchOffsetSigned ∧ 128 ≤ b.toNat then 0xFF00 else 0)

/-- The number of an access's group in R48. -/
def accessGroup : AccessKind → Nat
  | .opcodeFetch => 1
  | .operandRead => 2
  | .pointerRead => 3
  | .dataRead => 4
  | .dataWrite => 5

end Sys2Proof.Claims

open Sys2Proof Sys2Proof.Machine Sys2Proof.Claims

/-! ### Encoding -/

/-- Words written out from R49, R53 and R54, one or more for each family. The first four are the source's own. -/
def Obligations.WrittenOpcodesDecode : Prop :=
  decode .named [0xA9, 0xC0] = .ok (.ldaImmediate 0xC0, []) ∧
  decode .named [0xAA] = .ok (.tax, []) ∧
  decode .named [0xE8] = .ok (.inx, []) ∧
  decode .named [0x00] = .ok (.brk, []) ∧
  decode .named [0xBD, 0x00, 0x44] = .ok (.ldaAbsoluteX 0x4400, []) ∧
  decode .named [0x11, 0x20, 0xEA] = .ok (.oraIndirectY 0x20, [0xEA]) ∧
  decode .named [0x1E, 0xFE, 0xFF] = .ok (.aslAbsoluteX 0xFFFE, []) ∧
  decode .named [0x90, 0xFD] = .ok (.bcc 0xFD, []) ∧
  decode .extended [0x8D, 0x34, 0x12] = .ok (.staAbsolute 0x1234, []) ∧
  decode .extended [0xB6, 0xFF] = .ok (.ldxZeroPageY 0xFF, []) ∧
  decode .extended [0x66, 0x10] = .ok (.rorZeroPage 0x10, []) ∧
  decode .extended [0xC9, 0x20] = .ok (.cmpImmediate 0x20, []) ∧
  decode .extended [0x4C, 0x34, 0x12] = .ok (.jmp 0x1234, []) ∧
  decode .extended [0xF8] = .ok (.sed, []) ∧
  decode .named [0xA2, 0x05] = .error (.absent 0xA2) ∧
  decode .extended [0x6C, 0x00, 0x90] = .error (.absent 0x6C)

/-- Decoding the encoding of a well-formed instruction gives it back, with the bytes after it. -/
def Obligations.DecodeOfEncode : Prop :=
  ∀ (p : OpcodeProfile) (i : Instr) (rest : List Byte), i.wellFormed p = true →
    decode p (encode i ++ rest) = .ok (i, rest)

/-- Bytes that decode are the encoding of the decoded instruction, which the profile populates: each word has one
meaning. -/
def Obligations.EncodeOfDecode : Prop :=
  ∀ (p : OpcodeProfile) (bytes : List Byte) (i : Instr) (rest : List Byte), decode p bytes = .ok (i, rest) →
    i.wellFormed p = true ∧ bytes = encode i ++ rest

/-- R49, R50: an instruction takes 1, 2 or 3 bytes, the length of its mode's format, and so says every row of the
table. -/
def Obligations.EncodingLengthFollowsMode : Prop :=
  (∀ i : Instr, (encode i)[0]? = some i.opcode ∧
    ∃ f : Format, i.operand.mode.format = some f ∧ (encode i).length = f.length) ∧
  ∀ r ∈ dispatchTable, r.desc.mode ≠ .unresolved ∧ ∃ f : Format, r.desc.mode.format = some f ∧ r.desc.bytes = f.length

/-- R52 to R55: no byte value has two rows; 33 are populated in `named` and 120 in `extended`, so 223 and 136 are
illegal; a `named` entry is the same entry in `extended`. -/
def Obligations.PopulatedOpcodeCounts : Prop :=
  (dispatchTable.map fun r => r.code).Nodup ∧
  ((List.range 256).filter fun n => (lookup .named (BitVec.ofNat 8 n)).isNone).length = 223 ∧
  ((List.range 256).filter fun n => (lookup .extended (BitVec.ofNat 8 n)).isNone).length = 136 ∧
  ∀ code r, lookup .named code = some r → lookup .extended code = some r

/-! ### The execution loop -/

/-- A step from Running on the bytes of a well-formed instruction is exec of it, with `pc` moved past the opcode byte
and nothing else around it. -/
def Obligations.StepRunsDecodedInstruction : Prop :=
  ∀ (s : State) (i : Instr), s.run = .running → i.wellFormed s.config.opcodeProfile = true → standsAt i s →
    step s = exec i { s with pc := s.pc + 1 }

/-- R126: an opcode byte that no instruction of the profile has halts Fatal, and only `pc` and `run` change. -/
def Obligations.IllegalOpcodeHaltsFatal : Prop :=
  ∀ s : State, s.run = .running → ¬ populated s (s.readByte s.pc) →
    step s = .next { s with pc := s.pc + 1, run := .halted (.fatal .illegalInstruction) }

/-- R121: from a halted state there is no step; that the model answers a fault there is its own form of this (log entry
6). The host's memory writes leave it halted, with every register, flag and `pc` as they were, and its `reset()` makes it
Running. -/
def Obligations.HaltedCoreHasNoStep : Prop :=
  ∀ (s : State) (r : HaltReason), s.run = .halted r →
    (∃ f, step s = .fault f) ∧
    (∀ c t, c ≠ .reset → s.command c = .next t → t = { s with mem := t.mem }) ∧
    s.hostReset.run = .running

/-- R120, R127, R128: a step from Running always answers a next state. The run ends with Success exactly on the byte
0x00 (BRK), ends Fatal exactly on an unpopulated byte and then with IllegalInstruction, and goes on otherwise. -/
def Obligations.RunningStepHasThreeOutcomes : Prop :=
  ∀ s : State, s.run = .running → ∃ t, step s = .next t ∧
    (t.cleanEnd ↔ s.readByte s.pc = 0x00) ∧
    (t.fatalEnd ↔ ¬ populated s (s.readByte s.pc)) ∧
    (t.fatalEnd → t.run = .halted (.fatal .illegalInstruction)) ∧
    (t.run = .running ↔ populated s (s.readByte s.pc) ∧ s.readByte s.pc ≠ 0x00)

/-- R124: `pc` after one step, row by row of the rule's table. -/
def Obligations.PcAfterOneStep : Prop :=
  (∀ s : State, s.run = .running → ¬ populated s (s.readByte s.pc) → ∃ t, step s = .next t ∧ t.pc = s.pc + 1) ∧
  ∀ (s : State) (i : Instr), s.run = .running → i.wellFormed s.config.opcodeProfile = true → standsAt i s →
    ∃ t, step s = .next t ∧
      (i.operand.mode = .accumulator ∨ i.operand.mode = .implied → t.pc = s.pc + 1) ∧
      (i.operand.mode ≠ .accumulator → i.operand.mode ≠ .implied → i.mnemonic ≠ .jmp →
        branchTaken s.p i.mnemonic = none → t.pc = s.pc + BitVec.ofNat 16 (encode i).length) ∧
      (branchTaken s.p i.mnemonic = some false → t.pc = s.pc + 2) ∧
      (∀ b, branchTaken s.p i.mnemonic = some true → i.operand = .immediate b →
        t.pc = branchTarget s (s.pc + 2) b) ∧
      (∀ w, i = .jmp w → t.pc = w)

/-- R122: a bounded run is its steps in sequence: none for the bound 0, and otherwise one step and then the run of the
rest; two bounds add up, and a run that has ended stays as it ended. -/
def Obligations.BoundedRunsCompose : Prop :=
  (∀ s : State, State.runFor 0 s = s) ∧
  (∀ (n : Nat) (s t : State), step s = .next t → State.runFor (n + 1) s = State.runFor n t) ∧
  (∀ (m n : Nat) (s : State), State.runFor (m + n) s = State.runFor n (State.runFor m s)) ∧
  ∀ (n : Nat) (s : State), s.run ≠ .running → State.runFor n s = s

/-- R52: where the `named` profile populates the opcode at `pc`, the `extended` profile gives the same step. -/
def Obligations.ExtendedProfileExtendsNamed : Prop :=
  ∀ s t : State, s.config.opcodeProfile = .named → populated s (s.readByte s.pc) → step s = .next t →
    step { s with config := { s.config with opcodeProfile := .extended } } =
      .next { t with config := { s.config with opcodeProfile := .extended } }

/-- The model's own placing of a table word (log entry 4): the next step runs exactly the instruction that the
decoder reads from it. -/
def Obligations.PlacedWordRunsNext : Prop :=
  ∀ (s : State) (nbits w : Nat) (i : Instr), s.Inv → decodeTableWord nbits w = some i →
    step (s.withFetchWord nbits w) = exec i { s.withFetchWord nbits w with pc := s.pc + 1 }

/-! ### The resolver -/

/-- R61 to R64: the address of an Immediate operand is `pc`, and the zero-page forms wrap modulo 256. ZeroPageY is
used by LDX and STX and by nothing else, so by no opcode of `named`. -/
def Obligations.ZeroPageAddresses : Prop :=
  ∀ s : State,
    resolvesTo s .immediate s.pc.toNat ∧
    resolvesTo s .zeroPage (s.readByte s.pc).toNat ∧
    resolvesTo s .zeroPageX (((s.readByte s.pc).toNat + s.x.toNat) % 256) ∧
    resolvesTo s .zeroPageY (((s.readByte s.pc).toNat + s.y.toNat) % 256) ∧
    (∀ i : Instr, i.operand.mode = .zeroPageY →
      (i.mnemonic = .ldx ∨ i.mnemonic = .stx) ∧ i.wellFormed .named = false) ∧
    ∀ m, m = .ldx ∨ m = .stx → ∃ i : Instr, i.mnemonic = m ∧ i.operand.mode = .zeroPageY

/-- R65 to R67: the absolute forms add to the little-endian word at `pc` and wrap modulo 65536. -/
def Obligations.AbsoluteAddresses : Prop :=
  ∀ s : State,
    resolvesTo s .absolute (wordAt s s.pc (s.pc + 1)) ∧
    resolvesTo s .absoluteX ((wordAt s s.pc (s.pc + 1) + s.x.toNat) % 65536) ∧
    resolvesTo s .absoluteY ((wordAt s s.pc (s.pc + 1) + s.y.toNat) % 65536)

/-- R68, R69: IndirectX reads its pointer inside page 0 at operand + X; IndirectY reads it at the operand, wrapping
as the parameter says, and adds Y modulo 65536; the two settings differ only at the operand byte 0xFF. -/
def Obligations.IndirectAddresses : Prop :=
  ∀ s : State, let b := (s.readByte s.pc).toNat
    resolvesTo s .indirectX
      (wordAt s (BitVec.ofNat 16 ((b + s.x.toNat) % 256)) (BitVec.ofNat 16 ((b + s.x.toNat + 1) % 256))) ∧
    (s.config.indirectYPointerWrap = .page0 → resolvesTo s .indirectY
      ((wordAt s (BitVec.ofNat 16 b) (BitVec.ofNat 16 ((b + 1) % 256)) + s.y.toNat) % 65536)) ∧
    (s.config.indirectYPointerWrap = .linear → resolvesTo s .indirectY
      ((wordAt s (BitVec.ofNat 16 b) (BitVec.ofNat 16 (b + 1)) + s.y.toNat) % 65536)) ∧
    (b ≠ 255 → ∀ wrap, resolve (s.operandAtPc .indirectY)
        { s with config := { s.config with indirectYPointerWrap := wrap } } =
      resolve (s.operandAtPc .indirectY) s)

/-- R70, R127: the resolver raises InvalidAddressingMode for Accumulator, Implied and Unresolved and answers an address
for every other mode (R60); a handler that asks for such an address halts Fatal with none of its effects; no instruction
does. -/
def Obligations.InvalidAddressingModeHasNoEffect : Prop :=
  (∀ (o : Operand) (s : State) (body : Word → HandlerResult),
    o.mode = .accumulator ∨ o.mode = .implied ∨ o.mode = .unresolved →
      resolve o s = .error .invalidAddressingMode ∧
        (withAddress o s body).finish = .next { s with run := .halted (.fatal .invalidAddressingMode) }) ∧
  (∀ (o : Operand) (s : State),
    o.mode ≠ .accumulator → o.mode ≠ .implied → o.mode ≠ .unresolved → ∃ ea, resolve o s = .ok ea) ∧
  ∀ (i : Instr) (s t : State), s.run = .running → exec i s = .next t →
    t.run ≠ .halted (.fatal .invalidAddressingMode)

/-- R51, R60, R71: the operand an instruction carries is the one whose bytes stand at `pc` when its handler starts,
and the data byte it reads is the byte at its effective address (log entry 7: the model carries both). -/
def Obligations.CarriedOperandIsTheOneInMemory : Prop :=
  ∀ (s : State) (i : Instr), standsAt i s →
    let h := { s with pc := s.pc + 1 }
    h.operandAtPc i.operand.mode = i.operand ∧
      ∀ ea, resolve i.operand h = .ok ea → h.operandByte i.operand ea = h.readByte ea

/-! ### Memory -/

/-- R30, R31, R39: a byte written to any address reads back, every other byte is as before, and nothing else
changes. -/
def Obligations.ByteWriteChangesOneByte : Prop :=
  ∀ (s : State) (a : Word) (v : Byte), s.Inv →
    (∀ c, (s.writeByte a v).readByte c = if c = a then v else s.readByte c) ∧
    s.writeByte a v = { s with mem := (s.writeByte a v).mem }

/-- R32, R33, and the source's property E10: a word is little-endian and wraps at the top of memory; `write16` and then
`read16` gives the word back, and writes the two bytes alone. -/
def Obligations.WordAccessIsLittleEndian : Prop :=
  ∀ (s : State) (a w : Word), s.Inv →
    (s.read16 a).toNat = wordAt s a (a + 1) ∧
    (s.write16 a w).read16 a = w ∧
    ((s.write16 a w).readByte a).toNat = w.toNat % 256 ∧
    ((s.write16 a w).readByte (a + 1)).toNat = w.toNat / 256 ∧
    (∀ c, c ≠ a → c ≠ a + 1 → (s.write16 a w).readByte c = s.readByte c) ∧
    s.write16 a w = { s with mem := (s.write16 a w).mem }

/-- Memories in canonical form that read alike at every address are equal data (log entry 1). -/
def Obligations.EqualBytesEqualMemory : Prop :=
  ∀ s t : State, s.Inv → t.Inv → (∀ a, s.readByte a = t.readByte a) → s.mem = t.mem

/-- A step keeps memory in canonical form, from every state in which it is. -/
def Obligations.StepKeepsMemoryCanonical : Prop :=
  ∀ s t : State, s.Inv → step s = .next t → t.Inv

/-- The reset state's memory, which lists nothing (log entry 1), is in canonical form. -/
def Obligations.ResetMemoryCanonical : Prop := State.reset.Inv

/-- Whatever the host does to a core, steps included, its memory stays canonical and its parameters stay what they
were (R26, R143). -/
def Obligations.ReachableStatesKeepInvariantAndParameters : Prop :=
  ∀ s t : State, s.Inv → ReachableFrom s t → t.Inv ∧ t.config = s.config

/-- R48, R38, R45: a step's accesses come in the rule's order; the data write among them is the step's only effect on
memory; there is at most one, and every access that is not a write reads what memory held before the step. That an
Immediate operand's byte stands in the group of the data read is log entry 12. -/
def Obligations.AccessesAccountForMemory : Prop :=
  ∀ s t : State, step s = .next t →
    (stepAccesses s).Pairwise (fun e f => accessGroup e.kind ≤ accessGroup f.kind) ∧
    t.mem = applyWrites s.mem (stepAccesses s) ∧
    ((stepAccesses s).filter fun e => e.kind == .dataWrite).length ≤ 1 ∧
    ∀ e ∈ stepAccesses s, e.kind ≠ .dataWrite → e.value = s.readByte e.addr

/-- R46, R145: a byte that an instruction stores is what a fetch from that address sees at once. -/
def Obligations.StoreIsSeenByTheNextFetch : Prop :=
  ∀ (i : Instr) (s t : State) (ea : Word) (v : Byte), s.Inv → exec i s = .next t → resolve i.operand s = .ok ea →
    s.storedByte i.mnemonic (s.readByte ea) = some v →
    t.readByte ea = v ∧ (t.pc = ea → t.fetchBytes[0]? = some v)

/-! ### Construction, reset and the host -/

/-- R138: construction takes every register, flag and byte from the host and enters Running. -/
def Obligations.ConstructionTakesTheHostsValues : Prop :=
  ∀ (cfg : Config) (a x y : Byte) (p : Status) (pc : Word) (image : Word → Byte),
    let s := State.construct cfg a x y p pc image
    s.a = a ∧ s.x = x ∧ s.y = y ∧ s.p = p ∧ s.pc = pc ∧ s.run = .running ∧ s.config = cfg ∧ s.Inv ∧
      ∀ c, s.readByte c = image c

/-- R139: `reset()` zeroes the registers and every flag, loads `pc` from the reset vector, leaves memory alone and
ends in Running, in every run state. -/
def Obligations.ResetOperation : Prop :=
  ∀ s : State, s.hostReset =
    { s with
      a := 0, x := 0, y := 0
      p := { c := false, z := false, i := false, d := false, b := false, v := false, n := false }
      pc := BitVec.ofNat 16 (wordAt s 0xFFFC 0xFFFD)
      run := .running }

/-- The reset state is what `reset()` leaves. That its memory reads 0x00 everywhere, and its parameters, are the
model's choice (log entries 1 to 3). -/
def Obligations.ResetStateIsResetOfEmptyMemory : Prop :=
  State.reset = State.reset.hostReset ∧ State.reset.pc = 0x0000 ∧ ∀ c, State.reset.readByte c = 0x00

/-- R34: `write_slice` puts byte k at `start + k` and changes nothing else; a slice that would pass the top of
memory is refused. -/
def Obligations.SliceWrite : Prop :=
  ∀ (s : State) (start : Word) (bytes : List Byte), s.Inv →
    (start.toNat + bytes.length ≤ 65536 → ∃ t, s.writeSlice start bytes = .next t ∧ t = { s with mem := t.mem } ∧
      ∀ c, t.readByte c =
        if start.toNat ≤ c.toNat then (bytes[c.toNat - start.toNat]?).getD (s.readByte c) else s.readByte c) ∧
    (65536 < start.toNat + bytes.length → ∃ r, s.writeSlice start bytes = .refused r)

/-- R140, R141: `load_program` copies the bytes to 0x8000 and, in reset-capable configurations only, then writes the
origin into the reset vector, so that `reset()` resumes there; it changes nothing but memory. -/
def Obligations.ProgramLoad : Prop :=
  ∀ (s : State) (bytes : List Byte), s.Inv →
    (bytes.length ≤ 0x8000 → ∃ t, s.loadProgram bytes = .next t ∧ t = { s with mem := t.mem } ∧
      (s.config.resetCapable = true → t.hostReset.pc = 0x8000) ∧
      ∀ c, t.readByte c =
        if s.config.resetCapable = true ∧ c = 0xFFFC then 0x00
        else if s.config.resetCapable = true ∧ c = 0xFFFD then 0x80
        else if 0x8000 ≤ c.toNat then (bytes[c.toNat - 0x8000]?).getD (s.readByte c) else s.readByte c) ∧
    (0x8000 < bytes.length → ∃ r, s.loadProgram bytes = .refused r)

/-! ### The status register -/

/-- R21, R22: testing a flag after one is set or cleared; `recompute_zero_negative` and `set_carry` write their own
flags alone. -/
def Obligations.StatusUnitOperations : Prop :=
  (∀ (p : Status) (f g : Flag) (on : Bool), (p.set f on).test g = if g = f then on else p.test g) ∧
  (∀ (p : Status) (v : Byte), p.setZN v = zn p v) ∧
  ∀ (p : Status) (on : Bool), p.setCarry on = { p with c := on }

/-- R20: the packed value is N V - B D I Z C; bit 5 reads 0 and a write of it is ignored. -/
def Obligations.PackedStatusLayout : Prop :=
  (∀ p : Status,
    (List.range 8).map p.pack.getLsbD = [p.c, p.z, p.i, p.d, p.b, false, p.v, p.n] ∧ Status.unpack p.pack = p) ∧
  ∀ (s : State) (w : Byte), (s.writeP w).readP = w &&& 0xDF

/-! ### What every instruction leaves alone -/

/-- R14: an instruction that is not listed as a register's writer leaves it; one that is not listed as its reader has
the same effect whatever the register holds. -/
def Obligations.RegisterReadersAndWriters : Prop :=
  ∀ (r : Register) (i : Instr) (s t : State), exec i s = .next t →
    (writesRegister r i = false → t.reg r = s.reg r) ∧
    (readsRegister r i = false → ∀ v,
      exec i (s.setReg r v) = .next (if writesRegister r i then t else t.setReg r v))

/-- R23, R25: an instruction that the flag table does not list for a flag leaves it. -/
def Obligations.FlagWriters : Prop :=
  ∀ (f : Flag) (i : Instr) (s t : State), exec i s = .next t → writesFlag f i = false → t.p.test f = s.p.test f

/-- R24: no instruction writes V or B, only CLD and SED write D and only CLI and SEI write I; no instruction reads any
of the four. -/
def Obligations.UnwiredFlagsAreNeverRead : Prop :=
  ∀ (f : Flag) (i : Instr) (s t : State), f = .v ∨ f = .b ∨ f = .d ∨ f = .i → exec i s = .next t →
    (f = .v ∨ f = .b → t.p.test f = s.p.test f) ∧
    (f = .d → i.mnemonic ≠ .cld → i.mnemonic ≠ .sed → t.p.test f = s.p.test f) ∧
    (f = .i → i.mnemonic ≠ .cli → i.mnemonic ≠ .sei → t.p.test f = s.p.test f) ∧
    ∀ on, exec i (s.setFlag f on) = .next (if writesFlag f i then t else t.setFlag f on)

/-- R31, R35, R39: a form that stores nothing leaves memory as it was; one that stores leaves every byte but the one
at its effective address. -/
def Obligations.OnlyTheStoredByteChanges : Prop :=
  ∀ (i : Instr) (s t : State), exec i s = .next t →
    (storesToMemory i = false → t.mem = s.mem ∧ ∀ c, t.readByte c = s.readByte c) ∧
    (storesToMemory i = true → ∃ ea, resolve i.operand s = .ok ea ∧ ∀ c, c ≠ ea → t.readByte c = s.readByte c)

/-- R14: in the `named` profile Y keeps its value through every run, however long. -/
def Obligations.NamedProfileNeverWritesY : Prop :=
  ∀ (n : Nat) (s : State), s.config.opcodeProfile = .named → (State.runFor n s).y = s.y

/-- R123, R101, R69: an instruction's effect depends on the parameters only for a taken branch with an offset of 0x80 or
more (on its signedness) and for IndirectY at the operand byte 0xFF (on the pointer's wrap). -/
def Obligations.ParametersMatterOnlyWhereStated : Prop :=
  ∀ (i : Instr) (s t : State) (cfg : Config), exec i s = .next t →
    (cfg.indirectYPointerWrap = s.config.indirectYPointerWrap ∨ i.operand ≠ .indirectY 0xFF) →
    (cfg.branchOffsetSigned = s.config.branchOffsetSigned ∨ branchTaken s.p i.mnemonic ≠ some true ∨
      ∀ b, i.operand = .immediate b → b.toNat < 128) →
    exec i { s with config := cfg } = .next { t with config := cfg }

/-! ### What each instruction does

Every conclusion is the whole next state, so what is not named is unchanged. The byte an instruction reads is the one at
its effective address where the operand it carries is the one that stands at `pc`, as it is in every step
(CarriedOperandIsTheOneInMemory). -/

/-- R74: LDA Immediate, ZeroPage, ZeroPageX, Absolute, AbsoluteX, AbsoluteY, IndirectX, IndirectY. -/
def Obligations.LoadAccumulator : Prop :=
  encodedAs .lda .named [(0xA9, .immediate), (0xA5, .zeroPage), (0xB5, .zeroPageX), (0xAD, .absolute),
    (0xBD, .absoluteX), (0xB9, .absoluteY), (0xA1, .indirectX), (0xB1, .indirectY)] ∧
  ∀ (i : Instr) (s : State), i.mnemonic = .lda → ∃ ea, resolve i.operand s = .ok ea ∧
    let v := s.operandByte i.operand ea
    (s.operandAtPc i.operand.mode = i.operand → v = s.readByte ea) ∧
    exec i s = .next { s with a := v, p := zn s.p v, pc := pastOperand s i }

/-- R76, R77: LDX Immediate, ZeroPage, ZeroPageY, Absolute, AbsoluteY; LDY Immediate, ZeroPage, ZeroPageX, Absolute,
AbsoluteX. -/
def Obligations.LoadIndexRegisters : Prop :=
  encodedAs .ldx .extended [(0xA2, .immediate), (0xA6, .zeroPage), (0xB6, .zeroPageY), (0xAE, .absolute),
    (0xBE, .absoluteY)] ∧
  encodedAs .ldy .extended [(0xA0, .immediate), (0xA4, .zeroPage), (0xB4, .zeroPageX), (0xAC, .absolute),
    (0xBC, .absoluteX)] ∧
  ∀ (i : Instr) (s : State), i.mnemonic = .ldx ∨ i.mnemonic = .ldy → ∃ ea, resolve i.operand s = .ok ea ∧
    let v := s.operandByte i.operand ea
    (s.operandAtPc i.operand.mode = i.operand → v = s.readByte ea) ∧
    (i.mnemonic = .ldx → exec i s = .next { s with x := v, p := zn s.p v, pc := pastOperand s i }) ∧
    (i.mnemonic = .ldy → exec i s = .next { s with y := v, p := zn s.p v, pc := pastOperand s i })

/-- R75, R81, R82, R83: TAX, TAY, TXA, TYA. -/
def Obligations.RegisterTransfers : Prop :=
  encodedAs .tax .named [(0xAA, .implied)] ∧ encodedAs .tay .extended [(0xA8, .implied)] ∧
  encodedAs .txa .extended [(0x8A, .implied)] ∧ encodedAs .tya .extended [(0x98, .implied)] ∧
  ∀ s : State,
    exec .tax s = .next { s with x := s.a, p := zn s.p s.a } ∧
    exec .tay s = .next { s with y := s.a, p := zn s.p s.a } ∧
    exec .txa s = .next { s with a := s.x, p := zn s.p s.x } ∧
    exec .tya s = .next { s with a := s.y, p := zn s.p s.y }

/-- R78, R79, R80: STA ZeroPage, ZeroPageX, Absolute, AbsoluteX, AbsoluteY, IndirectX, IndirectY; STX ZeroPage,
ZeroPageY, Absolute; STY ZeroPage, ZeroPageX, Absolute. -/
def Obligations.Stores : Prop :=
  encodedAs .sta .extended [(0x85, .zeroPage), (0x95, .zeroPageX), (0x8D, .absolute), (0x9D, .absoluteX),
    (0x99, .absoluteY), (0x81, .indirectX), (0x91, .indirectY)] ∧
  encodedAs .stx .extended [(0x86, .zeroPage), (0x96, .zeroPageY), (0x8E, .absolute)] ∧
  encodedAs .sty .extended [(0x84, .zeroPage), (0x94, .zeroPageX), (0x8C, .absolute)] ∧
  ∀ (i : Instr) (s : State), i.mnemonic = .sta ∨ i.mnemonic = .stx ∨ i.mnemonic = .sty →
    ∃ ea, resolve i.operand s = .ok ea ∧
    (i.mnemonic = .sta → exec i s = .next { s with mem := Memory.write s.mem ea s.a, pc := pastOperand s i }) ∧
    (i.mnemonic = .stx → exec i s = .next { s with mem := Memory.write s.mem ea s.x, pc := pastOperand s i }) ∧
    (i.mnemonic = .sty → exec i s = .next { s with mem := Memory.write s.mem ea s.y, pc := pastOperand s i })

/-- R85, R86, R87: AND, ORA and EOR, each in Immediate, ZeroPage, ZeroPageX, Absolute, AbsoluteX, AbsoluteY,
IndirectX, IndirectY. -/
def Obligations.LogicalOperations : Prop :=
  encodedAs .and .named [(0x29, .immediate), (0x25, .zeroPage), (0x35, .zeroPageX), (0x2D, .absolute),
    (0x3D, .absoluteX), (0x39, .absoluteY), (0x21, .indirectX), (0x31, .indirectY)] ∧
  encodedAs .ora .named [(0x09, .immediate), (0x05, .zeroPage), (0x15, .zeroPageX), (0x0D, .absolute),
    (0x1D, .absoluteX), (0x19, .absoluteY), (0x01, .indirectX), (0x11, .indirectY)] ∧
  encodedAs .eor .extended [(0x49, .immediate), (0x45, .zeroPage), (0x55, .zeroPageX), (0x4D, .absolute),
    (0x5D, .absoluteX), (0x59, .absoluteY), (0x41, .indirectX), (0x51, .indirectY)] ∧
  ∀ (i : Instr) (s : State), i.mnemonic = .and ∨ i.mnemonic = .ora ∨ i.mnemonic = .eor →
    ∃ ea r, resolve i.operand s = .ok ea ∧
    exec i s = .next { s with a := r, p := zn s.p r, pc := pastOperand s i } ∧
    let m := s.operandByte i.operand ea
    (s.operandAtPc i.operand.mode = i.operand → m = s.readByte ea) ∧
    (i.mnemonic = .and → r = s.a &&& m) ∧ (i.mnemonic = .ora → r = s.a ||| m) ∧
    (i.mnemonic = .eor → r = s.a ^^^ m)

/-- R88: ASL Accumulator, ZeroPage, ZeroPageX, Absolute, AbsoluteX. -/
def Obligations.ArithmeticShiftLeft : Prop :=
  encodedAs .asl .named [(0x0A, .accumulator), (0x06, .zeroPage), (0x16, .zeroPageX), (0x0E, .absolute),
    (0x1E, .absoluteX)] ∧
  ∀ s : State,
    (let r := BitVec.ofNat 8 (2 * s.a.toNat);
      exec .aslAccumulator s = .next { s with a := r, p := czn s.p (decide (128 ≤ s.a.toNat)) r }) ∧
    ∀ i : Instr, i.mnemonic = .asl → i ≠ .aslAccumulator → ∃ ea, resolve i.operand s = .ok ea ∧
      let v := (s.readByte ea).toNat
      let r := BitVec.ofNat 8 (2 * v)
      exec i s = .next
        { s with mem := Memory.write s.mem ea r, p := czn s.p (decide (128 ≤ v)) r, pc := pastOperand s i }

/-- R89: LSR Accumulator, ZeroPage, ZeroPageX, Absolute, AbsoluteX. -/
def Obligations.LogicalShiftRight : Prop :=
  encodedAs .lsr .extended [(0x4A, .accumulator), (0x46, .zeroPage), (0x56, .zeroPageX), (0x4E, .absolute),
    (0x5E, .absoluteX)] ∧
  ∀ s : State,
    (let r := BitVec.ofNat 8 (s.a.toNat / 2);
      exec .lsrAccumulator s = .next { s with a := r, p := czn s.p (decide (s.a.toNat % 2 = 1)) r }) ∧
    ∀ i : Instr, i.mnemonic = .lsr → i ≠ .lsrAccumulator → ∃ ea, resolve i.operand s = .ok ea ∧
      let v := (s.readByte ea).toNat
      let r := BitVec.ofNat 8 (v / 2)
      exec i s = .next
        { s with mem := Memory.write s.mem ea r, p := czn s.p (decide (v % 2 = 1)) r, pc := pastOperand s i }

/-- R90, R91: ROL and ROR, each in Accumulator, ZeroPage, ZeroPageX, Absolute, AbsoluteX; the old Carry enters the
vacated bit. -/
def Obligations.RotatesThroughCarry : Prop :=
  encodedAs .rol .extended [(0x2A, .accumulator), (0x26, .zeroPage), (0x36, .zeroPageX), (0x2E, .absolute),
    (0x3E, .absoluteX)] ∧
  encodedAs .ror .extended [(0x6A, .accumulator), (0x66, .zeroPage), (0x76, .zeroPageX), (0x6E, .absolute),
    (0x7E, .absoluteX)] ∧
  ∀ s : State, let c := s.p.c.toNat
    (let r := BitVec.ofNat 8 (2 * s.a.toNat + c);
      exec .rolAccumulator s = .next { s with a := r, p := czn s.p (decide (128 ≤ s.a.toNat)) r }) ∧
    (let r := BitVec.ofNat 8 (s.a.toNat / 2 + 128 * c);
      exec .rorAccumulator s = .next { s with a := r, p := czn s.p (decide (s.a.toNat % 2 = 1)) r }) ∧
    (∀ i : Instr, i.mnemonic = .rol → i ≠ .rolAccumulator → ∃ ea, resolve i.operand s = .ok ea ∧
      let v := (s.readByte ea).toNat
      let r := BitVec.ofNat 8 (2 * v + c)
      exec i s = .next
        { s with mem := Memory.write s.mem ea r, p := czn s.p (decide (128 ≤ v)) r, pc := pastOperand s i }) ∧
    ∀ i : Instr, i.mnemonic = .ror → i ≠ .rorAccumulator → ∃ ea, resolve i.operand s = .ok ea ∧
      let v := (s.readByte ea).toNat
      let r := BitVec.ofNat 8 (v / 2 + 128 * c)
      exec i s = .next
        { s with mem := Memory.write s.mem ea r, p := czn s.p (decide (v % 2 = 1)) r, pc := pastOperand s i }

/-- R92 to R95: INX, INY, DEX, DEY. Carry is not written. -/
def Obligations.RegisterCounts : Prop :=
  encodedAs .inx .named [(0xE8, .implied)] ∧ encodedAs .iny .extended [(0xC8, .implied)] ∧
  encodedAs .dex .extended [(0xCA, .implied)] ∧ encodedAs .dey .extended [(0x88, .implied)] ∧
  ∀ s : State,
    (let r := BitVec.ofNat 8 (s.x.toNat + 1); exec .inx s = .next { s with x := r, p := zn s.p r }) ∧
    (let r := BitVec.ofNat 8 (s.y.toNat + 1); exec .iny s = .next { s with y := r, p := zn s.p r }) ∧
    (let r := BitVec.ofNat 8 (s.x.toNat + 255); exec .dex s = .next { s with x := r, p := zn s.p r }) ∧
    (let r := BitVec.ofNat 8 (s.y.toNat + 255); exec .dey s = .next { s with y := r, p := zn s.p r })

/-- R96, R97: INC and DEC, each in ZeroPage, ZeroPageX, Absolute, AbsoluteX. Carry is not written. -/
def Obligations.MemoryCounts : Prop :=
  encodedAs .inc .extended [(0xE6, .zeroPage), (0xF6, .zeroPageX), (0xEE, .absolute), (0xFE, .absoluteX)] ∧
  encodedAs .dec .extended [(0xC6, .zeroPage), (0xD6, .zeroPageX), (0xCE, .absolute), (0xDE, .absoluteX)] ∧
  ∀ (i : Instr) (s : State), i.mnemonic = .inc ∨ i.mnemonic = .dec →
    ∃ ea r, resolve i.operand s = .ok ea ∧
    exec i s = .next { s with mem := Memory.write s.mem ea r, p := zn s.p r, pc := pastOperand s i } ∧
    (i.mnemonic = .inc → r.toNat = ((s.readByte ea).toNat + 1) % 256) ∧
    (i.mnemonic = .dec → r.toNat = ((s.readByte ea).toNat + 255) % 256)

/-- R98, R99, R100: CMP in Immediate, ZeroPage, ZeroPageX, Absolute, AbsoluteX, AbsoluteY, IndirectX, IndirectY; CPX
and CPY in Immediate, ZeroPage, Absolute. Only C, Z and N are written. -/
def Obligations.Compares : Prop :=
  encodedAs .cmp .extended [(0xC9, .immediate), (0xC5, .zeroPage), (0xD5, .zeroPageX), (0xCD, .absolute),
    (0xDD, .absoluteX), (0xD9, .absoluteY), (0xC1, .indirectX), (0xD1, .indirectY)] ∧
  encodedAs .cpx .extended [(0xE0, .immediate), (0xE4, .zeroPage), (0xEC, .absolute)] ∧
  encodedAs .cpy .extended [(0xC0, .immediate), (0xC4, .zeroPage), (0xCC, .absolute)] ∧
  ∀ (i : Instr) (s : State) (reg : Byte),
    (i.mnemonic = .cmp ∧ reg = s.a) ∨ (i.mnemonic = .cpx ∧ reg = s.x) ∨ (i.mnemonic = .cpy ∧ reg = s.y) →
    ∃ ea, resolve i.operand s = .ok ea ∧
      let m := (s.operandByte i.operand ea).toNat
      (s.operandAtPc i.operand.mode = i.operand → m = (s.readByte ea).toNat) ∧
      let d := BitVec.ofNat 8 (reg.toNat + 256 - m)
      exec i s = .next { s with p := czn s.p (decide (m ≤ reg.toNat)) d, pc := pastOperand s i }

/-- R101 to R107: BCC, BCS, BEQ, BNE, BMI, BPL. `pc` is one past the opcode byte when the handler starts. -/
def Obligations.ConditionalBranches : Prop :=
  encodedAs .bcc .named [(0x90, .immediate)] ∧ encodedAs .bcs .extended [(0xB0, .immediate)] ∧
  encodedAs .beq .extended [(0xF0, .immediate)] ∧ encodedAs .bne .extended [(0xD0, .immediate)] ∧
  encodedAs .bmi .extended [(0x30, .immediate)] ∧ encodedAs .bpl .extended [(0x10, .immediate)] ∧
  ∀ (s : State) (b : Byte), let next := s.pc + 1
    let goesTo (cond : Bool) := { s with pc := if cond then branchTarget s next b else next }
    exec (.bcc b) s = .next (goesTo (s.p.c == false)) ∧
    exec (.bcs b) s = .next (goesTo (s.p.c == true)) ∧
    exec (.beq b) s = .next (goesTo (s.p.z == true)) ∧
    exec (.bne b) s = .next (goesTo (s.p.z == false)) ∧
    exec (.bmi b) s = .next (goesTo (s.p.n == true)) ∧
    exec (.bpl b) s = .next (goesTo (s.p.n == false))

/-- R108: JMP. The operand word becomes `pc`; nothing else changes. No instruction has the indirect form's byte. -/
def Obligations.JumpAbsolute : Prop :=
  encodedAs .jmp .extended [(0x4C, .absolute)] ∧ (∀ i : Instr, i.opcode ≠ 0x6C) ∧
  ∀ (s : State) (w : Word), exec (.jmp w) s = .next { s with pc := w }

/-- R109: BRK ends the run with Success and writes nothing else; `pc` stays one past the opcode byte. -/
def Obligations.BreakEndsTheRun : Prop :=
  encodedAs .brk .named [(0x00, .implied)] ∧
  ∀ s : State, exec .brk s = .next { s with run := .halted .success }

/-- R110 to R116: NOP does nothing; CLC, SEC, CLI, SEI, CLD, SED write one flag each. -/
def Obligations.NoOperationAndFlagInstructions : Prop :=
  encodedAs .nop .extended [(0xEA, .implied)] ∧
  encodedAs .clc .extended [(0x18, .implied)] ∧ encodedAs .sec .extended [(0x38, .implied)] ∧
  encodedAs .cli .extended [(0x58, .implied)] ∧ encodedAs .sei .extended [(0x78, .implied)] ∧
  encodedAs .cld .extended [(0xD8, .implied)] ∧ encodedAs .sed .extended [(0xF8, .implied)] ∧
  ∀ s : State,
    exec .nop s = .next s ∧
    exec .clc s = .next { s with p := { s.p with c := false } } ∧
    exec .sec s = .next { s with p := { s.p with c := true } } ∧
    exec .cli s = .next { s with p := { s.p with i := false } } ∧
    exec .sei s = .next { s with p := { s.p with i := true } } ∧
    exec .cld s = .next { s with p := { s.p with d := false } } ∧
    exec .sed s = .next { s with p := { s.p with d := true } }
end

