-- ==== Sys2Proof/Laws/Bits.lean ====
section
/-! SUPPORT. The arithmetic that R10 gives for the bit and byte-order helpers. -/

namespace Sys2Proof.Machine

theorem lo_toNat (w : Word) : (lo w).toNat = w.toNat % 256 := by simp [lo]

theorem hi_toNat (w : Word) : (hi w).toNat = w.toNat / 256 := by
  have := w.isLt
  simp [hi, Nat.shiftRight_eq_div_pow]
  omega

theorem concat_toNat (h l : Byte) : (concat h l).toNat = h.toNat * 256 + l.toNat := by
  have := l.isLt
  have := h.isLt
  simp only [concat, BitVec.toNat_append, Nat.shiftLeft_eq]
  rw [Nat.mul_comm, show (2 : Nat) ^ 8 = 256 from rfl, ← Nat.two_pow_add_eq_or_of_lt (i := 8) (by omega)]

@[simp] theorem concat_hi_lo (w : Word) : concat (hi w) (lo w) = w := by
  apply BitVec.eq_of_toNat_eq
  rw [concat_toNat, hi_toNat, lo_toNat]
  omega

@[simp] theorem lo_concat (h l : Byte) : lo (concat h l) = l := by
  apply BitVec.eq_of_toNat_eq
  have := l.isLt
  rw [lo_toNat, concat_toNat]
  omega

@[simp] theorem hi_concat (h l : Byte) : hi (concat h l) = h := by
  apply BitVec.eq_of_toNat_eq
  have := l.isLt
  rw [hi_toNat, concat_toNat]
  omega

theorem zext16_toNat (b : Byte) : (zext16 b).toNat = b.toNat := by
  have := b.isLt
  simp [zext16]
  omega

/-- R10's formula for `sext_16`. -/
theorem sext16_toNat (b : Byte) : (sext16 b).toNat = if b.toNat < 128 then b.toNat else b.toNat + 0xFF00 := by
  revert b
  decide

end Sys2Proof.Machine
end

