-- ==== Sys2Proof/Laws/PerInstr.lean ====
section
/-! SUPPORT. Per-instruction families. RowAgrees: the dispatch table has exactly the row that an instruction's own
view (mnemonic, operand mode, length) describes, under its opcode byte and in its profile. RowBuilds: that row's
handler, given the instruction's operand bytes, builds the instruction. -/

namespace Sys2Proof.Laws

/-- The row under the instruction's opcode byte carries its mnemonic, its mode, its format's length and the smaller
profile that populates it (30_encoding.md R50, R52). -/
def RowAgrees.Statement (i : Instr) : Prop :=
  ∃ r, findRow i.opcode = some r ∧ r.desc.mnemonic = i.mnemonic ∧ r.desc.mode = i.operand.mode ∧
    r.desc.bytes = i.operand.bytes ∧ r.profile = (if i.mnemonic.inNamed then .named else .extended) ∧
    r.desc.wellFormed = true

theorem RowAgrees.ldaImmediate (v : Byte) : RowAgrees.Statement (.ldaImmediate v) := ⟨_, rfl, rfl, rfl, rfl, rfl, rfl⟩
theorem RowAgrees.ldaZeroPage (b : Byte) : RowAgrees.Statement (.ldaZeroPage b) := ⟨_, rfl, rfl, rfl, rfl, rfl, rfl⟩
theorem RowAgrees.ldaZeroPageX (b : Byte) : RowAgrees.Statement (.ldaZeroPageX b) := ⟨_, rfl, rfl, rfl, rfl, rfl, rfl⟩
theorem RowAgrees.ldaAbsolute (w : Word) : RowAgrees.Statement (.ldaAbsolute w) := ⟨_, rfl, rfl, rfl, rfl, rfl, rfl⟩
theorem RowAgrees.ldaAbsoluteX (w : Word) : RowAgrees.Statement (.ldaAbsoluteX w) := ⟨_, rfl, rfl, rfl, rfl, rfl, rfl⟩
theorem RowAgrees.ldaAbsoluteY (w : Word) : RowAgrees.Statement (.ldaAbsoluteY w) := ⟨_, rfl, rfl, rfl, rfl, rfl, rfl⟩
theorem RowAgrees.ldaIndirectX (b : Byte) : RowAgrees.Statement (.ldaIndirectX b) := ⟨_, rfl, rfl, rfl, rfl, rfl, rfl⟩
theorem RowAgrees.ldaIndirectY (b : Byte) : RowAgrees.Statement (.ldaIndirectY b) := ⟨_, rfl, rfl, rfl, rfl, rfl, rfl⟩
theorem RowAgrees.andImmediate (v : Byte) : RowAgrees.Statement (.andImmediate v) := ⟨_, rfl, rfl, rfl, rfl, rfl, rfl⟩
theorem RowAgrees.andZeroPage (b : Byte) : RowAgrees.Statement (.andZeroPage b) := ⟨_, rfl, rfl, rfl, rfl, rfl, rfl⟩
theorem RowAgrees.andZeroPageX (b : Byte) : RowAgrees.Statement (.andZeroPageX b) := ⟨_, rfl, rfl, rfl, rfl, rfl, rfl⟩
theorem RowAgrees.andAbsolute (w : Word) : RowAgrees.Statement (.andAbsolute w) := ⟨_, rfl, rfl, rfl, rfl, rfl, rfl⟩
theorem RowAgrees.andAbsoluteX (w : Word) : RowAgrees.Statement (.andAbsoluteX w) := ⟨_, rfl, rfl, rfl, rfl, rfl, rfl⟩
theorem RowAgrees.andAbsoluteY (w : Word) : RowAgrees.Statement (.andAbsoluteY w) := ⟨_, rfl, rfl, rfl, rfl, rfl, rfl⟩
theorem RowAgrees.andIndirectX (b : Byte) : RowAgrees.Statement (.andIndirectX b) := ⟨_, rfl, rfl, rfl, rfl, rfl, rfl⟩
theorem RowAgrees.andIndirectY (b : Byte) : RowAgrees.Statement (.andIndirectY b) := ⟨_, rfl, rfl, rfl, rfl, rfl, rfl⟩
theorem RowAgrees.oraImmediate (v : Byte) : RowAgrees.Statement (.oraImmediate v) := ⟨_, rfl, rfl, rfl, rfl, rfl, rfl⟩
theorem RowAgrees.oraZeroPage (b : Byte) : RowAgrees.Statement (.oraZeroPage b) := ⟨_, rfl, rfl, rfl, rfl, rfl, rfl⟩
theorem RowAgrees.oraZeroPageX (b : Byte) : RowAgrees.Statement (.oraZeroPageX b) := ⟨_, rfl, rfl, rfl, rfl, rfl, rfl⟩
theorem RowAgrees.oraAbsolute (w : Word) : RowAgrees.Statement (.oraAbsolute w) := ⟨_, rfl, rfl, rfl, rfl, rfl, rfl⟩
theorem RowAgrees.oraAbsoluteX (w : Word) : RowAgrees.Statement (.oraAbsoluteX w) := ⟨_, rfl, rfl, rfl, rfl, rfl, rfl⟩
theorem RowAgrees.oraAbsoluteY (w : Word) : RowAgrees.Statement (.oraAbsoluteY w) := ⟨_, rfl, rfl, rfl, rfl, rfl, rfl⟩
theorem RowAgrees.oraIndirectX (b : Byte) : RowAgrees.Statement (.oraIndirectX b) := ⟨_, rfl, rfl, rfl, rfl, rfl, rfl⟩
theorem RowAgrees.oraIndirectY (b : Byte) : RowAgrees.Statement (.oraIndirectY b) := ⟨_, rfl, rfl, rfl, rfl, rfl, rfl⟩
theorem RowAgrees.aslAccumulator : RowAgrees.Statement (.aslAccumulator) := ⟨_, rfl, rfl, rfl, rfl, rfl, rfl⟩
theorem RowAgrees.aslZeroPage (b : Byte) : RowAgrees.Statement (.aslZeroPage b) := ⟨_, rfl, rfl, rfl, rfl, rfl, rfl⟩
theorem RowAgrees.aslZeroPageX (b : Byte) : RowAgrees.Statement (.aslZeroPageX b) := ⟨_, rfl, rfl, rfl, rfl, rfl, rfl⟩
theorem RowAgrees.aslAbsolute (w : Word) : RowAgrees.Statement (.aslAbsolute w) := ⟨_, rfl, rfl, rfl, rfl, rfl, rfl⟩
theorem RowAgrees.aslAbsoluteX (w : Word) : RowAgrees.Statement (.aslAbsoluteX w) := ⟨_, rfl, rfl, rfl, rfl, rfl, rfl⟩
theorem RowAgrees.tax : RowAgrees.Statement (.tax) := ⟨_, rfl, rfl, rfl, rfl, rfl, rfl⟩
theorem RowAgrees.inx : RowAgrees.Statement (.inx) := ⟨_, rfl, rfl, rfl, rfl, rfl, rfl⟩
theorem RowAgrees.bcc (b : Byte) : RowAgrees.Statement (.bcc b) := ⟨_, rfl, rfl, rfl, rfl, rfl, rfl⟩
theorem RowAgrees.brk : RowAgrees.Statement (.brk) := ⟨_, rfl, rfl, rfl, rfl, rfl, rfl⟩
theorem RowAgrees.ldxImmediate (v : Byte) : RowAgrees.Statement (.ldxImmediate v) := ⟨_, rfl, rfl, rfl, rfl, rfl, rfl⟩
theorem RowAgrees.ldxZeroPage (b : Byte) : RowAgrees.Statement (.ldxZeroPage b) := ⟨_, rfl, rfl, rfl, rfl, rfl, rfl⟩
theorem RowAgrees.ldxZeroPageY (b : Byte) : RowAgrees.Statement (.ldxZeroPageY b) := ⟨_, rfl, rfl, rfl, rfl, rfl, rfl⟩
theorem RowAgrees.ldxAbsolute (w : Word) : RowAgrees.Statement (.ldxAbsolute w) := ⟨_, rfl, rfl, rfl, rfl, rfl, rfl⟩
theorem RowAgrees.ldxAbsoluteY (w : Word) : RowAgrees.Statement (.ldxAbsoluteY w) := ⟨_, rfl, rfl, rfl, rfl, rfl, rfl⟩
theorem RowAgrees.ldyImmediate (v : Byte) : RowAgrees.Statement (.ldyImmediate v) := ⟨_, rfl, rfl, rfl, rfl, rfl, rfl⟩
theorem RowAgrees.ldyZeroPage (b : Byte) : RowAgrees.Statement (.ldyZeroPage b) := ⟨_, rfl, rfl, rfl, rfl, rfl, rfl⟩
theorem RowAgrees.ldyZeroPageX (b : Byte) : RowAgrees.Statement (.ldyZeroPageX b) := ⟨_, rfl, rfl, rfl, rfl, rfl, rfl⟩
theorem RowAgrees.ldyAbsolute (w : Word) : RowAgrees.Statement (.ldyAbsolute w) := ⟨_, rfl, rfl, rfl, rfl, rfl, rfl⟩
theorem RowAgrees.ldyAbsoluteX (w : Word) : RowAgrees.Statement (.ldyAbsoluteX w) := ⟨_, rfl, rfl, rfl, rfl, rfl, rfl⟩
theorem RowAgrees.staZeroPage (b : Byte) : RowAgrees.Statement (.staZeroPage b) := ⟨_, rfl, rfl, rfl, rfl, rfl, rfl⟩
theorem RowAgrees.staZeroPageX (b : Byte) : RowAgrees.Statement (.staZeroPageX b) := ⟨_, rfl, rfl, rfl, rfl, rfl, rfl⟩
theorem RowAgrees.staAbsolute (w : Word) : RowAgrees.Statement (.staAbsolute w) := ⟨_, rfl, rfl, rfl, rfl, rfl, rfl⟩
theorem RowAgrees.staAbsoluteX (w : Word) : RowAgrees.Statement (.staAbsoluteX w) := ⟨_, rfl, rfl, rfl, rfl, rfl, rfl⟩
theorem RowAgrees.staAbsoluteY (w : Word) : RowAgrees.Statement (.staAbsoluteY w) := ⟨_, rfl, rfl, rfl, rfl, rfl, rfl⟩
theorem RowAgrees.staIndirectX (b : Byte) : RowAgrees.Statement (.staIndirectX b) := ⟨_, rfl, rfl, rfl, rfl, rfl, rfl⟩
theorem RowAgrees.staIndirectY (b : Byte) : RowAgrees.Statement (.staIndirectY b) := ⟨_, rfl, rfl, rfl, rfl, rfl, rfl⟩
theorem RowAgrees.stxZeroPage (b : Byte) : RowAgrees.Statement (.stxZeroPage b) := ⟨_, rfl, rfl, rfl, rfl, rfl, rfl⟩
theorem RowAgrees.stxZeroPageY (b : Byte) : RowAgrees.Statement (.stxZeroPageY b) := ⟨_, rfl, rfl, rfl, rfl, rfl, rfl⟩
theorem RowAgrees.stxAbsolute (w : Word) : RowAgrees.Statement (.stxAbsolute w) := ⟨_, rfl, rfl, rfl, rfl, rfl, rfl⟩
theorem RowAgrees.styZeroPage (b : Byte) : RowAgrees.Statement (.styZeroPage b) := ⟨_, rfl, rfl, rfl, rfl, rfl, rfl⟩
theorem RowAgrees.styZeroPageX (b : Byte) : RowAgrees.Statement (.styZeroPageX b) := ⟨_, rfl, rfl, rfl, rfl, rfl, rfl⟩
theorem RowAgrees.styAbsolute (w : Word) : RowAgrees.Statement (.styAbsolute w) := ⟨_, rfl, rfl, rfl, rfl, rfl, rfl⟩
theorem RowAgrees.tay : RowAgrees.Statement (.tay) := ⟨_, rfl, rfl, rfl, rfl, rfl, rfl⟩
theorem RowAgrees.txa : RowAgrees.Statement (.txa) := ⟨_, rfl, rfl, rfl, rfl, rfl, rfl⟩
theorem RowAgrees.tya : RowAgrees.Statement (.tya) := ⟨_, rfl, rfl, rfl, rfl, rfl, rfl⟩
theorem RowAgrees.eorImmediate (v : Byte) : RowAgrees.Statement (.eorImmediate v) := ⟨_, rfl, rfl, rfl, rfl, rfl, rfl⟩
theorem RowAgrees.eorZeroPage (b : Byte) : RowAgrees.Statement (.eorZeroPage b) := ⟨_, rfl, rfl, rfl, rfl, rfl, rfl⟩
theorem RowAgrees.eorZeroPageX (b : Byte) : RowAgrees.Statement (.eorZeroPageX b) := ⟨_, rfl, rfl, rfl, rfl, rfl, rfl⟩
theorem RowAgrees.eorAbsolute (w : Word) : RowAgrees.Statement (.eorAbsolute w) := ⟨_, rfl, rfl, rfl, rfl, rfl, rfl⟩
theorem RowAgrees.eorAbsoluteX (w : Word) : RowAgrees.Statement (.eorAbsoluteX w) := ⟨_, rfl, rfl, rfl, rfl, rfl, rfl⟩
theorem RowAgrees.eorAbsoluteY (w : Word) : RowAgrees.Statement (.eorAbsoluteY w) := ⟨_, rfl, rfl, rfl, rfl, rfl, rfl⟩
theorem RowAgrees.eorIndirectX (b : Byte) : RowAgrees.Statement (.eorIndirectX b) := ⟨_, rfl, rfl, rfl, rfl, rfl, rfl⟩
theorem RowAgrees.eorIndirectY (b : Byte) : RowAgrees.Statement (.eorIndirectY b) := ⟨_, rfl, rfl, rfl, rfl, rfl, rfl⟩
theorem RowAgrees.lsrAccumulator : RowAgrees.Statement (.lsrAccumulator) := ⟨_, rfl, rfl, rfl, rfl, rfl, rfl⟩
theorem RowAgrees.lsrZeroPage (b : Byte) : RowAgrees.Statement (.lsrZeroPage b) := ⟨_, rfl, rfl, rfl, rfl, rfl, rfl⟩
theorem RowAgrees.lsrZeroPageX (b : Byte) : RowAgrees.Statement (.lsrZeroPageX b) := ⟨_, rfl, rfl, rfl, rfl, rfl, rfl⟩
theorem RowAgrees.lsrAbsolute (w : Word) : RowAgrees.Statement (.lsrAbsolute w) := ⟨_, rfl, rfl, rfl, rfl, rfl, rfl⟩
theorem RowAgrees.lsrAbsoluteX (w : Word) : RowAgrees.Statement (.lsrAbsoluteX w) := ⟨_, rfl, rfl, rfl, rfl, rfl, rfl⟩
theorem RowAgrees.rolAccumulator : RowAgrees.Statement (.rolAccumulator) := ⟨_, rfl, rfl, rfl, rfl, rfl, rfl⟩
theorem RowAgrees.rolZeroPage (b : Byte) : RowAgrees.Statement (.rolZeroPage b) := ⟨_, rfl, rfl, rfl, rfl, rfl, rfl⟩
theorem RowAgrees.rolZeroPageX (b : Byte) : RowAgrees.Statement (.rolZeroPageX b) := ⟨_, rfl, rfl, rfl, rfl, rfl, rfl⟩
theorem RowAgrees.rolAbsolute (w : Word) : RowAgrees.Statement (.rolAbsolute w) := ⟨_, rfl, rfl, rfl, rfl, rfl, rfl⟩
theorem RowAgrees.rolAbsoluteX (w : Word) : RowAgrees.Statement (.rolAbsoluteX w) := ⟨_, rfl, rfl, rfl, rfl, rfl, rfl⟩
theorem RowAgrees.rorAccumulator : RowAgrees.Statement (.rorAccumulator) := ⟨_, rfl, rfl, rfl, rfl, rfl, rfl⟩
theorem RowAgrees.rorZeroPage (b : Byte) : RowAgrees.Statement (.rorZeroPage b) := ⟨_, rfl, rfl, rfl, rfl, rfl, rfl⟩
theorem RowAgrees.rorZeroPageX (b : Byte) : RowAgrees.Statement (.rorZeroPageX b) := ⟨_, rfl, rfl, rfl, rfl, rfl, rfl⟩
theorem RowAgrees.rorAbsolute (w : Word) : RowAgrees.Statement (.rorAbsolute w) := ⟨_, rfl, rfl, rfl, rfl, rfl, rfl⟩
theorem RowAgrees.rorAbsoluteX (w : Word) : RowAgrees.Statement (.rorAbsoluteX w) := ⟨_, rfl, rfl, rfl, rfl, rfl, rfl⟩
theorem RowAgrees.iny : RowAgrees.Statement (.iny) := ⟨_, rfl, rfl, rfl, rfl, rfl, rfl⟩
theorem RowAgrees.dex : RowAgrees.Statement (.dex) := ⟨_, rfl, rfl, rfl, rfl, rfl, rfl⟩
theorem RowAgrees.dey : RowAgrees.Statement (.dey) := ⟨_, rfl, rfl, rfl, rfl, rfl, rfl⟩
theorem RowAgrees.incZeroPage (b : Byte) : RowAgrees.Statement (.incZeroPage b) := ⟨_, rfl, rfl, rfl, rfl, rfl, rfl⟩
theorem RowAgrees.incZeroPageX (b : Byte) : RowAgrees.Statement (.incZeroPageX b) := ⟨_, rfl, rfl, rfl, rfl, rfl, rfl⟩
theorem RowAgrees.incAbsolute (w : Word) : RowAgrees.Statement (.incAbsolute w) := ⟨_, rfl, rfl, rfl, rfl, rfl, rfl⟩
theorem RowAgrees.incAbsoluteX (w : Word) : RowAgrees.Statement (.incAbsoluteX w) := ⟨_, rfl, rfl, rfl, rfl, rfl, rfl⟩
theorem RowAgrees.decZeroPage (b : Byte) : RowAgrees.Statement (.decZeroPage b) := ⟨_, rfl, rfl, rfl, rfl, rfl, rfl⟩
theorem RowAgrees.decZeroPageX (b : Byte) : RowAgrees.Statement (.decZeroPageX b) := ⟨_, rfl, rfl, rfl, rfl, rfl, rfl⟩
theorem RowAgrees.decAbsolute (w : Word) : RowAgrees.Statement (.decAbsolute w) := ⟨_, rfl, rfl, rfl, rfl, rfl, rfl⟩
theorem RowAgrees.decAbsoluteX (w : Word) : RowAgrees.Statement (.decAbsoluteX w) := ⟨_, rfl, rfl, rfl, rfl, rfl, rfl⟩
theorem RowAgrees.cmpImmediate (v : Byte) : RowAgrees.Statement (.cmpImmediate v) := ⟨_, rfl, rfl, rfl, rfl, rfl, rfl⟩
theorem RowAgrees.cmpZeroPage (b : Byte) : RowAgrees.Statement (.cmpZeroPage b) := ⟨_, rfl, rfl, rfl, rfl, rfl, rfl⟩
theorem RowAgrees.cmpZeroPageX (b : Byte) : RowAgrees.Statement (.cmpZeroPageX b) := ⟨_, rfl, rfl, rfl, rfl, rfl, rfl⟩
theorem RowAgrees.cmpAbsolute (w : Word) : RowAgrees.Statement (.cmpAbsolute w) := ⟨_, rfl, rfl, rfl, rfl, rfl, rfl⟩
theorem RowAgrees.cmpAbsoluteX (w : Word) : RowAgrees.Statement (.cmpAbsoluteX w) := ⟨_, rfl, rfl, rfl, rfl, rfl, rfl⟩
theorem RowAgrees.cmpAbsoluteY (w : Word) : RowAgrees.Statement (.cmpAbsoluteY w) := ⟨_, rfl, rfl, rfl, rfl, rfl, rfl⟩
theorem RowAgrees.cmpIndirectX (b : Byte) : RowAgrees.Statement (.cmpIndirectX b) := ⟨_, rfl, rfl, rfl, rfl, rfl, rfl⟩
theorem RowAgrees.cmpIndirectY (b : Byte) : RowAgrees.Statement (.cmpIndirectY b) := ⟨_, rfl, rfl, rfl, rfl, rfl, rfl⟩
theorem RowAgrees.cpxImmediate (v : Byte) : RowAgrees.Statement (.cpxImmediate v) := ⟨_, rfl, rfl, rfl, rfl, rfl, rfl⟩
theorem RowAgrees.cpxZeroPage (b : Byte) : RowAgrees.Statement (.cpxZeroPage b) := ⟨_, rfl, rfl, rfl, rfl, rfl, rfl⟩
theorem RowAgrees.cpxAbsolute (w : Word) : RowAgrees.Statement (.cpxAbsolute w) := ⟨_, rfl, rfl, rfl, rfl, rfl, rfl⟩
theorem RowAgrees.cpyImmediate (v : Byte) : RowAgrees.Statement (.cpyImmediate v) := ⟨_, rfl, rfl, rfl, rfl, rfl, rfl⟩
theorem RowAgrees.cpyZeroPage (b : Byte) : RowAgrees.Statement (.cpyZeroPage b) := ⟨_, rfl, rfl, rfl, rfl, rfl, rfl⟩
theorem RowAgrees.cpyAbsolute (w : Word) : RowAgrees.Statement (.cpyAbsolute w) := ⟨_, rfl, rfl, rfl, rfl, rfl, rfl⟩
theorem RowAgrees.bcs (b : Byte) : RowAgrees.Statement (.bcs b) := ⟨_, rfl, rfl, rfl, rfl, rfl, rfl⟩
theorem RowAgrees.beq (b : Byte) : RowAgrees.Statement (.beq b) := ⟨_, rfl, rfl, rfl, rfl, rfl, rfl⟩
theorem RowAgrees.bne (b : Byte) : RowAgrees.Statement (.bne b) := ⟨_, rfl, rfl, rfl, rfl, rfl, rfl⟩
theorem RowAgrees.bmi (b : Byte) : RowAgrees.Statement (.bmi b) := ⟨_, rfl, rfl, rfl, rfl, rfl, rfl⟩
theorem RowAgrees.bpl (b : Byte) : RowAgrees.Statement (.bpl b) := ⟨_, rfl, rfl, rfl, rfl, rfl, rfl⟩
theorem RowAgrees.jmp (w : Word) : RowAgrees.Statement (.jmp w) := ⟨_, rfl, rfl, rfl, rfl, rfl, rfl⟩
theorem RowAgrees.nop : RowAgrees.Statement (.nop) := ⟨_, rfl, rfl, rfl, rfl, rfl, rfl⟩
theorem RowAgrees.clc : RowAgrees.Statement (.clc) := ⟨_, rfl, rfl, rfl, rfl, rfl, rfl⟩
theorem RowAgrees.sec : RowAgrees.Statement (.sec) := ⟨_, rfl, rfl, rfl, rfl, rfl, rfl⟩
theorem RowAgrees.cli : RowAgrees.Statement (.cli) := ⟨_, rfl, rfl, rfl, rfl, rfl, rfl⟩
theorem RowAgrees.sei : RowAgrees.Statement (.sei) := ⟨_, rfl, rfl, rfl, rfl, rfl, rfl⟩
theorem RowAgrees.cld : RowAgrees.Statement (.cld) := ⟨_, rfl, rfl, rfl, rfl, rfl, rfl⟩
theorem RowAgrees.sed : RowAgrees.Statement (.sed) := ⟨_, rfl, rfl, rfl, rfl, rfl, rfl⟩

/-- The row under the instruction's opcode byte assembles the instruction from its own operand bytes (R51). -/
def RowBuilds.Statement (i : Instr) : Prop :=
  ∃ r, findRow i.opcode = some r ∧
    ∀ rest, r.handler.assemble i.opcode (i.operand.encoding ++ rest) = .ok (i, rest)

theorem RowBuilds.ldaImmediate (v : Byte) : RowBuilds.Statement (.ldaImmediate v) := ⟨_, rfl, fun _ => rfl⟩
theorem RowBuilds.ldaZeroPage (b : Byte) : RowBuilds.Statement (.ldaZeroPage b) := ⟨_, rfl, fun _ => rfl⟩
theorem RowBuilds.ldaZeroPageX (b : Byte) : RowBuilds.Statement (.ldaZeroPageX b) := ⟨_, rfl, fun _ => rfl⟩
theorem RowBuilds.ldaAbsolute (w : Word) : RowBuilds.Statement (.ldaAbsolute w) := 
  ⟨_, rfl, fun rest => congrArg (fun w => Except.ok (Instr.ldaAbsolute w, rest)) (Machine.concat_hi_lo w)⟩
theorem RowBuilds.ldaAbsoluteX (w : Word) : RowBuilds.Statement (.ldaAbsoluteX w) := 
  ⟨_, rfl, fun rest => congrArg (fun w => Except.ok (Instr.ldaAbsoluteX w, rest)) (Machine.concat_hi_lo w)⟩
theorem RowBuilds.ldaAbsoluteY (w : Word) : RowBuilds.Statement (.ldaAbsoluteY w) := 
  ⟨_, rfl, fun rest => congrArg (fun w => Except.ok (Instr.ldaAbsoluteY w, rest)) (Machine.concat_hi_lo w)⟩
theorem RowBuilds.ldaIndirectX (b : Byte) : RowBuilds.Statement (.ldaIndirectX b) := ⟨_, rfl, fun _ => rfl⟩
theorem RowBuilds.ldaIndirectY (b : Byte) : RowBuilds.Statement (.ldaIndirectY b) := ⟨_, rfl, fun _ => rfl⟩
theorem RowBuilds.andImmediate (v : Byte) : RowBuilds.Statement (.andImmediate v) := ⟨_, rfl, fun _ => rfl⟩
theorem RowBuilds.andZeroPage (b : Byte) : RowBuilds.Statement (.andZeroPage b) := ⟨_, rfl, fun _ => rfl⟩
theorem RowBuilds.andZeroPageX (b : Byte) : RowBuilds.Statement (.andZeroPageX b) := ⟨_, rfl, fun _ => rfl⟩
theorem RowBuilds.andAbsolute (w : Word) : RowBuilds.Statement (.andAbsolute w) := 
  ⟨_, rfl, fun rest => congrArg (fun w => Except.ok (Instr.andAbsolute w, rest)) (Machine.concat_hi_lo w)⟩
theorem RowBuilds.andAbsoluteX (w : Word) : RowBuilds.Statement (.andAbsoluteX w) := 
  ⟨_, rfl, fun rest => congrArg (fun w => Except.ok (Instr.andAbsoluteX w, rest)) (Machine.concat_hi_lo w)⟩
theorem RowBuilds.andAbsoluteY (w : Word) : RowBuilds.Statement (.andAbsoluteY w) := 
  ⟨_, rfl, fun rest => congrArg (fun w => Except.ok (Instr.andAbsoluteY w, rest)) (Machine.concat_hi_lo w)⟩
theorem RowBuilds.andIndirectX (b : Byte) : RowBuilds.Statement (.andIndirectX b) := ⟨_, rfl, fun _ => rfl⟩
theorem RowBuilds.andIndirectY (b : Byte) : RowBuilds.Statement (.andIndirectY b) := ⟨_, rfl, fun _ => rfl⟩
theorem RowBuilds.oraImmediate (v : Byte) : RowBuilds.Statement (.oraImmediate v) := ⟨_, rfl, fun _ => rfl⟩
theorem RowBuilds.oraZeroPage (b : Byte) : RowBuilds.Statement (.oraZeroPage b) := ⟨_, rfl, fun _ => rfl⟩
theorem RowBuilds.oraZeroPageX (b : Byte) : RowBuilds.Statement (.oraZeroPageX b) := ⟨_, rfl, fun _ => rfl⟩
theorem RowBuilds.oraAbsolute (w : Word) : RowBuilds.Statement (.oraAbsolute w) := 
  ⟨_, rfl, fun rest => congrArg (fun w => Except.ok (Instr.oraAbsolute w, rest)) (Machine.concat_hi_lo w)⟩
theorem RowBuilds.oraAbsoluteX (w : Word) : RowBuilds.Statement (.oraAbsoluteX w) := 
  ⟨_, rfl, fun rest => congrArg (fun w => Except.ok (Instr.oraAbsoluteX w, rest)) (Machine.concat_hi_lo w)⟩
theorem RowBuilds.oraAbsoluteY (w : Word) : RowBuilds.Statement (.oraAbsoluteY w) := 
  ⟨_, rfl, fun rest => congrArg (fun w => Except.ok (Instr.oraAbsoluteY w, rest)) (Machine.concat_hi_lo w)⟩
theorem RowBuilds.oraIndirectX (b : Byte) : RowBuilds.Statement (.oraIndirectX b) := ⟨_, rfl, fun _ => rfl⟩
theorem RowBuilds.oraIndirectY (b : Byte) : RowBuilds.Statement (.oraIndirectY b) := ⟨_, rfl, fun _ => rfl⟩
theorem RowBuilds.aslAccumulator : RowBuilds.Statement (.aslAccumulator) := ⟨_, rfl, fun _ => rfl⟩
theorem RowBuilds.aslZeroPage (b : Byte) : RowBuilds.Statement (.aslZeroPage b) := ⟨_, rfl, fun _ => rfl⟩
theorem RowBuilds.aslZeroPageX (b : Byte) : RowBuilds.Statement (.aslZeroPageX b) := ⟨_, rfl, fun _ => rfl⟩
theorem RowBuilds.aslAbsolute (w : Word) : RowBuilds.Statement (.aslAbsolute w) := 
  ⟨_, rfl, fun rest => congrArg (fun w => Except.ok (Instr.aslAbsolute w, rest)) (Machine.concat_hi_lo w)⟩
theorem RowBuilds.aslAbsoluteX (w : Word) : RowBuilds.Statement (.aslAbsoluteX w) := 
  ⟨_, rfl, fun rest => congrArg (fun w => Except.ok (Instr.aslAbsoluteX w, rest)) (Machine.concat_hi_lo w)⟩
theorem RowBuilds.tax : RowBuilds.Statement (.tax) := ⟨_, rfl, fun _ => rfl⟩
theorem RowBuilds.inx : RowBuilds.Statement (.inx) := ⟨_, rfl, fun _ => rfl⟩
theorem RowBuilds.bcc (b : Byte) : RowBuilds.Statement (.bcc b) := ⟨_, rfl, fun _ => rfl⟩
theorem RowBuilds.brk : RowBuilds.Statement (.brk) := ⟨_, rfl, fun _ => rfl⟩
theorem RowBuilds.ldxImmediate (v : Byte) : RowBuilds.Statement (.ldxImmediate v) := ⟨_, rfl, fun _ => rfl⟩
theorem RowBuilds.ldxZeroPage (b : Byte) : RowBuilds.Statement (.ldxZeroPage b) := ⟨_, rfl, fun _ => rfl⟩
theorem RowBuilds.ldxZeroPageY (b : Byte) : RowBuilds.Statement (.ldxZeroPageY b) := ⟨_, rfl, fun _ => rfl⟩
theorem RowBuilds.ldxAbsolute (w : Word) : RowBuilds.Statement (.ldxAbsolute w) := 
  ⟨_, rfl, fun rest => congrArg (fun w => Except.ok (Instr.ldxAbsolute w, rest)) (Machine.concat_hi_lo w)⟩
theorem RowBuilds.ldxAbsoluteY (w : Word) : RowBuilds.Statement (.ldxAbsoluteY w) := 
  ⟨_, rfl, fun rest => congrArg (fun w => Except.ok (Instr.ldxAbsoluteY w, rest)) (Machine.concat_hi_lo w)⟩
theorem RowBuilds.ldyImmediate (v : Byte) : RowBuilds.Statement (.ldyImmediate v) := ⟨_, rfl, fun _ => rfl⟩
theorem RowBuilds.ldyZeroPage (b : Byte) : RowBuilds.Statement (.ldyZeroPage b) := ⟨_, rfl, fun _ => rfl⟩
theorem RowBuilds.ldyZeroPageX (b : Byte) : RowBuilds.Statement (.ldyZeroPageX b) := ⟨_, rfl, fun _ => rfl⟩
theorem RowBuilds.ldyAbsolute (w : Word) : RowBuilds.Statement (.ldyAbsolute w) := 
  ⟨_, rfl, fun rest => congrArg (fun w => Except.ok (Instr.ldyAbsolute w, rest)) (Machine.concat_hi_lo w)⟩
theorem RowBuilds.ldyAbsoluteX (w : Word) : RowBuilds.Statement (.ldyAbsoluteX w) := 
  ⟨_, rfl, fun rest => congrArg (fun w => Except.ok (Instr.ldyAbsoluteX w, rest)) (Machine.concat_hi_lo w)⟩
theorem RowBuilds.staZeroPage (b : Byte) : RowBuilds.Statement (.staZeroPage b) := ⟨_, rfl, fun _ => rfl⟩
theorem RowBuilds.staZeroPageX (b : Byte) : RowBuilds.Statement (.staZeroPageX b) := ⟨_, rfl, fun _ => rfl⟩
theorem RowBuilds.staAbsolute (w : Word) : RowBuilds.Statement (.staAbsolute w) := 
  ⟨_, rfl, fun rest => congrArg (fun w => Except.ok (Instr.staAbsolute w, rest)) (Machine.concat_hi_lo w)⟩
theorem RowBuilds.staAbsoluteX (w : Word) : RowBuilds.Statement (.staAbsoluteX w) := 
  ⟨_, rfl, fun rest => congrArg (fun w => Except.ok (Instr.staAbsoluteX w, rest)) (Machine.concat_hi_lo w)⟩
theorem RowBuilds.staAbsoluteY (w : Word) : RowBuilds.Statement (.staAbsoluteY w) := 
  ⟨_, rfl, fun rest => congrArg (fun w => Except.ok (Instr.staAbsoluteY w, rest)) (Machine.concat_hi_lo w)⟩
theorem RowBuilds.staIndirectX (b : Byte) : RowBuilds.Statement (.staIndirectX b) := ⟨_, rfl, fun _ => rfl⟩
theorem RowBuilds.staIndirectY (b : Byte) : RowBuilds.Statement (.staIndirectY b) := ⟨_, rfl, fun _ => rfl⟩
theorem RowBuilds.stxZeroPage (b : Byte) : RowBuilds.Statement (.stxZeroPage b) := ⟨_, rfl, fun _ => rfl⟩
theorem RowBuilds.stxZeroPageY (b : Byte) : RowBuilds.Statement (.stxZeroPageY b) := ⟨_, rfl, fun _ => rfl⟩
theorem RowBuilds.stxAbsolute (w : Word) : RowBuilds.Statement (.stxAbsolute w) := 
  ⟨_, rfl, fun rest => congrArg (fun w => Except.ok (Instr.stxAbsolute w, rest)) (Machine.concat_hi_lo w)⟩
theorem RowBuilds.styZeroPage (b : Byte) : RowBuilds.Statement (.styZeroPage b) := ⟨_, rfl, fun _ => rfl⟩
theorem RowBuilds.styZeroPageX (b : Byte) : RowBuilds.Statement (.styZeroPageX b) := ⟨_, rfl, fun _ => rfl⟩
theorem RowBuilds.styAbsolute (w : Word) : RowBuilds.Statement (.styAbsolute w) := 
  ⟨_, rfl, fun rest => congrArg (fun w => Except.ok (Instr.styAbsolute w, rest)) (Machine.concat_hi_lo w)⟩
theorem RowBuilds.tay : RowBuilds.Statement (.tay) := ⟨_, rfl, fun _ => rfl⟩
theorem RowBuilds.txa : RowBuilds.Statement (.txa) := ⟨_, rfl, fun _ => rfl⟩
theorem RowBuilds.tya : RowBuilds.Statement (.tya) := ⟨_, rfl, fun _ => rfl⟩
theorem RowBuilds.eorImmediate (v : Byte) : RowBuilds.Statement (.eorImmediate v) := ⟨_, rfl, fun _ => rfl⟩
theorem RowBuilds.eorZeroPage (b : Byte) : RowBuilds.Statement (.eorZeroPage b) := ⟨_, rfl, fun _ => rfl⟩
theorem RowBuilds.eorZeroPageX (b : Byte) : RowBuilds.Statement (.eorZeroPageX b) := ⟨_, rfl, fun _ => rfl⟩
theorem RowBuilds.eorAbsolute (w : Word) : RowBuilds.Statement (.eorAbsolute w) := 
  ⟨_, rfl, fun rest => congrArg (fun w => Except.ok (Instr.eorAbsolute w, rest)) (Machine.concat_hi_lo w)⟩
theorem RowBuilds.eorAbsoluteX (w : Word) : RowBuilds.Statement (.eorAbsoluteX w) := 
  ⟨_, rfl, fun rest => congrArg (fun w => Except.ok (Instr.eorAbsoluteX w, rest)) (Machine.concat_hi_lo w)⟩
theorem RowBuilds.eorAbsoluteY (w : Word) : RowBuilds.Statement (.eorAbsoluteY w) := 
  ⟨_, rfl, fun rest => congrArg (fun w => Except.ok (Instr.eorAbsoluteY w, rest)) (Machine.concat_hi_lo w)⟩
theorem RowBuilds.eorIndirectX (b : Byte) : RowBuilds.Statement (.eorIndirectX b) := ⟨_, rfl, fun _ => rfl⟩
theorem RowBuilds.eorIndirectY (b : Byte) : RowBuilds.Statement (.eorIndirectY b) := ⟨_, rfl, fun _ => rfl⟩
theorem RowBuilds.lsrAccumulator : RowBuilds.Statement (.lsrAccumulator) := ⟨_, rfl, fun _ => rfl⟩
theorem RowBuilds.lsrZeroPage (b : Byte) : RowBuilds.Statement (.lsrZeroPage b) := ⟨_, rfl, fun _ => rfl⟩
theorem RowBuilds.lsrZeroPageX (b : Byte) : RowBuilds.Statement (.lsrZeroPageX b) := ⟨_, rfl, fun _ => rfl⟩
theorem RowBuilds.lsrAbsolute (w : Word) : RowBuilds.Statement (.lsrAbsolute w) := 
  ⟨_, rfl, fun rest => congrArg (fun w => Except.ok (Instr.lsrAbsolute w, rest)) (Machine.concat_hi_lo w)⟩
theorem RowBuilds.lsrAbsoluteX (w : Word) : RowBuilds.Statement (.lsrAbsoluteX w) := 
  ⟨_, rfl, fun rest => congrArg (fun w => Except.ok (Instr.lsrAbsoluteX w, rest)) (Machine.concat_hi_lo w)⟩
theorem RowBuilds.rolAccumulator : RowBuilds.Statement (.rolAccumulator) := ⟨_, rfl, fun _ => rfl⟩
theorem RowBuilds.rolZeroPage (b : Byte) : RowBuilds.Statement (.rolZeroPage b) := ⟨_, rfl, fun _ => rfl⟩
theorem RowBuilds.rolZeroPageX (b : Byte) : RowBuilds.Statement (.rolZeroPageX b) := ⟨_, rfl, fun _ => rfl⟩
theorem RowBuilds.rolAbsolute (w : Word) : RowBuilds.Statement (.rolAbsolute w) := 
  ⟨_, rfl, fun rest => congrArg (fun w => Except.ok (Instr.rolAbsolute w, rest)) (Machine.concat_hi_lo w)⟩
theorem RowBuilds.rolAbsoluteX (w : Word) : RowBuilds.Statement (.rolAbsoluteX w) := 
  ⟨_, rfl, fun rest => congrArg (fun w => Except.ok (Instr.rolAbsoluteX w, rest)) (Machine.concat_hi_lo w)⟩
theorem RowBuilds.rorAccumulator : RowBuilds.Statement (.rorAccumulator) := ⟨_, rfl, fun _ => rfl⟩
theorem RowBuilds.rorZeroPage (b : Byte) : RowBuilds.Statement (.rorZeroPage b) := ⟨_, rfl, fun _ => rfl⟩
theorem RowBuilds.rorZeroPageX (b : Byte) : RowBuilds.Statement (.rorZeroPageX b) := ⟨_, rfl, fun _ => rfl⟩
theorem RowBuilds.rorAbsolute (w : Word) : RowBuilds.Statement (.rorAbsolute w) := 
  ⟨_, rfl, fun rest => congrArg (fun w => Except.ok (Instr.rorAbsolute w, rest)) (Machine.concat_hi_lo w)⟩
theorem RowBuilds.rorAbsoluteX (w : Word) : RowBuilds.Statement (.rorAbsoluteX w) := 
  ⟨_, rfl, fun rest => congrArg (fun w => Except.ok (Instr.rorAbsoluteX w, rest)) (Machine.concat_hi_lo w)⟩
theorem RowBuilds.iny : RowBuilds.Statement (.iny) := ⟨_, rfl, fun _ => rfl⟩
theorem RowBuilds.dex : RowBuilds.Statement (.dex) := ⟨_, rfl, fun _ => rfl⟩
theorem RowBuilds.dey : RowBuilds.Statement (.dey) := ⟨_, rfl, fun _ => rfl⟩
theorem RowBuilds.incZeroPage (b : Byte) : RowBuilds.Statement (.incZeroPage b) := ⟨_, rfl, fun _ => rfl⟩
theorem RowBuilds.incZeroPageX (b : Byte) : RowBuilds.Statement (.incZeroPageX b) := ⟨_, rfl, fun _ => rfl⟩
theorem RowBuilds.incAbsolute (w : Word) : RowBuilds.Statement (.incAbsolute w) := 
  ⟨_, rfl, fun rest => congrArg (fun w => Except.ok (Instr.incAbsolute w, rest)) (Machine.concat_hi_lo w)⟩
theorem RowBuilds.incAbsoluteX (w : Word) : RowBuilds.Statement (.incAbsoluteX w) := 
  ⟨_, rfl, fun rest => congrArg (fun w => Except.ok (Instr.incAbsoluteX w, rest)) (Machine.concat_hi_lo w)⟩
theorem RowBuilds.decZeroPage (b : Byte) : RowBuilds.Statement (.decZeroPage b) := ⟨_, rfl, fun _ => rfl⟩
theorem RowBuilds.decZeroPageX (b : Byte) : RowBuilds.Statement (.decZeroPageX b) := ⟨_, rfl, fun _ => rfl⟩
theorem RowBuilds.decAbsolute (w : Word) : RowBuilds.Statement (.decAbsolute w) := 
  ⟨_, rfl, fun rest => congrArg (fun w => Except.ok (Instr.decAbsolute w, rest)) (Machine.concat_hi_lo w)⟩
theorem RowBuilds.decAbsoluteX (w : Word) : RowBuilds.Statement (.decAbsoluteX w) := 
  ⟨_, rfl, fun rest => congrArg (fun w => Except.ok (Instr.decAbsoluteX w, rest)) (Machine.concat_hi_lo w)⟩
theorem RowBuilds.cmpImmediate (v : Byte) : RowBuilds.Statement (.cmpImmediate v) := ⟨_, rfl, fun _ => rfl⟩
theorem RowBuilds.cmpZeroPage (b : Byte) : RowBuilds.Statement (.cmpZeroPage b) := ⟨_, rfl, fun _ => rfl⟩
theorem RowBuilds.cmpZeroPageX (b : Byte) : RowBuilds.Statement (.cmpZeroPageX b) := ⟨_, rfl, fun _ => rfl⟩
theorem RowBuilds.cmpAbsolute (w : Word) : RowBuilds.Statement (.cmpAbsolute w) := 
  ⟨_, rfl, fun rest => congrArg (fun w => Except.ok (Instr.cmpAbsolute w, rest)) (Machine.concat_hi_lo w)⟩
theorem RowBuilds.cmpAbsoluteX (w : Word) : RowBuilds.Statement (.cmpAbsoluteX w) := 
  ⟨_, rfl, fun rest => congrArg (fun w => Except.ok (Instr.cmpAbsoluteX w, rest)) (Machine.concat_hi_lo w)⟩
theorem RowBuilds.cmpAbsoluteY (w : Word) : RowBuilds.Statement (.cmpAbsoluteY w) := 
  ⟨_, rfl, fun rest => congrArg (fun w => Except.ok (Instr.cmpAbsoluteY w, rest)) (Machine.concat_hi_lo w)⟩
theorem RowBuilds.cmpIndirectX (b : Byte) : RowBuilds.Statement (.cmpIndirectX b) := ⟨_, rfl, fun _ => rfl⟩
theorem RowBuilds.cmpIndirectY (b : Byte) : RowBuilds.Statement (.cmpIndirectY b) := ⟨_, rfl, fun _ => rfl⟩
theorem RowBuilds.cpxImmediate (v : Byte) : RowBuilds.Statement (.cpxImmediate v) := ⟨_, rfl, fun _ => rfl⟩
theorem RowBuilds.cpxZeroPage (b : Byte) : RowBuilds.Statement (.cpxZeroPage b) := ⟨_, rfl, fun _ => rfl⟩
theorem RowBuilds.cpxAbsolute (w : Word) : RowBuilds.Statement (.cpxAbsolute w) := 
  ⟨_, rfl, fun rest => congrArg (fun w => Except.ok (Instr.cpxAbsolute w, rest)) (Machine.concat_hi_lo w)⟩
theorem RowBuilds.cpyImmediate (v : Byte) : RowBuilds.Statement (.cpyImmediate v) := ⟨_, rfl, fun _ => rfl⟩
theorem RowBuilds.cpyZeroPage (b : Byte) : RowBuilds.Statement (.cpyZeroPage b) := ⟨_, rfl, fun _ => rfl⟩
theorem RowBuilds.cpyAbsolute (w : Word) : RowBuilds.Statement (.cpyAbsolute w) := 
  ⟨_, rfl, fun rest => congrArg (fun w => Except.ok (Instr.cpyAbsolute w, rest)) (Machine.concat_hi_lo w)⟩
theorem RowBuilds.bcs (b : Byte) : RowBuilds.Statement (.bcs b) := ⟨_, rfl, fun _ => rfl⟩
theorem RowBuilds.beq (b : Byte) : RowBuilds.Statement (.beq b) := ⟨_, rfl, fun _ => rfl⟩
theorem RowBuilds.bne (b : Byte) : RowBuilds.Statement (.bne b) := ⟨_, rfl, fun _ => rfl⟩
theorem RowBuilds.bmi (b : Byte) : RowBuilds.Statement (.bmi b) := ⟨_, rfl, fun _ => rfl⟩
theorem RowBuilds.bpl (b : Byte) : RowBuilds.Statement (.bpl b) := ⟨_, rfl, fun _ => rfl⟩
theorem RowBuilds.jmp (w : Word) : RowBuilds.Statement (.jmp w) := 
  ⟨_, rfl, fun rest => congrArg (fun w => Except.ok (Instr.jmp w, rest)) (Machine.concat_hi_lo w)⟩
theorem RowBuilds.nop : RowBuilds.Statement (.nop) := ⟨_, rfl, fun _ => rfl⟩
theorem RowBuilds.clc : RowBuilds.Statement (.clc) := ⟨_, rfl, fun _ => rfl⟩
theorem RowBuilds.sec : RowBuilds.Statement (.sec) := ⟨_, rfl, fun _ => rfl⟩
theorem RowBuilds.cli : RowBuilds.Statement (.cli) := ⟨_, rfl, fun _ => rfl⟩
theorem RowBuilds.sei : RowBuilds.Statement (.sei) := ⟨_, rfl, fun _ => rfl⟩
theorem RowBuilds.cld : RowBuilds.Statement (.cld) := ⟨_, rfl, fun _ => rfl⟩
theorem RowBuilds.sed : RowBuilds.Statement (.sed) := ⟨_, rfl, fun _ => rfl⟩

/-- RowAgrees holds of every instruction. -/
theorem RowAgrees.every : ∀ i : Instr, RowAgrees.Statement i
  | .ldaImmediate v => RowAgrees.ldaImmediate v
  | .ldaZeroPage b => RowAgrees.ldaZeroPage b
  | .ldaZeroPageX b => RowAgrees.ldaZeroPageX b
  | .ldaAbsolute w => RowAgrees.ldaAbsolute w
  | .ldaAbsoluteX w => RowAgrees.ldaAbsoluteX w
  | .ldaAbsoluteY w => RowAgrees.ldaAbsoluteY w
  | .ldaIndirectX b => RowAgrees.ldaIndirectX b
  | .ldaIndirectY b => RowAgrees.ldaIndirectY b
  | .andImmediate v => RowAgrees.andImmediate v
  | .andZeroPage b => RowAgrees.andZeroPage b
  | .andZeroPageX b => RowAgrees.andZeroPageX b
  | .andAbsolute w => RowAgrees.andAbsolute w
  | .andAbsoluteX w => RowAgrees.andAbsoluteX w
  | .andAbsoluteY w => RowAgrees.andAbsoluteY w
  | .andIndirectX b => RowAgrees.andIndirectX b
  | .andIndirectY b => RowAgrees.andIndirectY b
  | .oraImmediate v => RowAgrees.oraImmediate v
  | .oraZeroPage b => RowAgrees.oraZeroPage b
  | .oraZeroPageX b => RowAgrees.oraZeroPageX b
  | .oraAbsolute w => RowAgrees.oraAbsolute w
  | .oraAbsoluteX w => RowAgrees.oraAbsoluteX w
  | .oraAbsoluteY w => RowAgrees.oraAbsoluteY w
  | .oraIndirectX b => RowAgrees.oraIndirectX b
  | .oraIndirectY b => RowAgrees.oraIndirectY b
  | .aslAccumulator => RowAgrees.aslAccumulator
  | .aslZeroPage b => RowAgrees.aslZeroPage b
  | .aslZeroPageX b => RowAgrees.aslZeroPageX b
  | .aslAbsolute w => RowAgrees.aslAbsolute w
  | .aslAbsoluteX w => RowAgrees.aslAbsoluteX w
  | .tax => RowAgrees.tax
  | .inx => RowAgrees.inx
  | .bcc b => RowAgrees.bcc b
  | .brk => RowAgrees.brk
  | .ldxImmediate v => RowAgrees.ldxImmediate v
  | .ldxZeroPage b => RowAgrees.ldxZeroPage b
  | .ldxZeroPageY b => RowAgrees.ldxZeroPageY b
  | .ldxAbsolute w => RowAgrees.ldxAbsolute w
  | .ldxAbsoluteY w => RowAgrees.ldxAbsoluteY w
  | .ldyImmediate v => RowAgrees.ldyImmediate v
  | .ldyZeroPage b => RowAgrees.ldyZeroPage b
  | .ldyZeroPageX b => RowAgrees.ldyZeroPageX b
  | .ldyAbsolute w => RowAgrees.ldyAbsolute w
  | .ldyAbsoluteX w => RowAgrees.ldyAbsoluteX w
  | .staZeroPage b => RowAgrees.staZeroPage b
  | .staZeroPageX b => RowAgrees.staZeroPageX b
  | .staAbsolute w => RowAgrees.staAbsolute w
  | .staAbsoluteX w => RowAgrees.staAbsoluteX w
  | .staAbsoluteY w => RowAgrees.staAbsoluteY w
  | .staIndirectX b => RowAgrees.staIndirectX b
  | .staIndirectY b => RowAgrees.staIndirectY b
  | .stxZeroPage b => RowAgrees.stxZeroPage b
  | .stxZeroPageY b => RowAgrees.stxZeroPageY b
  | .stxAbsolute w => RowAgrees.stxAbsolute w
  | .styZeroPage b => RowAgrees.styZeroPage b
  | .styZeroPageX b => RowAgrees.styZeroPageX b
  | .styAbsolute w => RowAgrees.styAbsolute w
  | .tay => RowAgrees.tay
  | .txa => RowAgrees.txa
  | .tya => RowAgrees.tya
  | .eorImmediate v => RowAgrees.eorImmediate v
  | .eorZeroPage b => RowAgrees.eorZeroPage b
  | .eorZeroPageX b => RowAgrees.eorZeroPageX b
  | .eorAbsolute w => RowAgrees.eorAbsolute w
  | .eorAbsoluteX w => RowAgrees.eorAbsoluteX w
  | .eorAbsoluteY w => RowAgrees.eorAbsoluteY w
  | .eorIndirectX b => RowAgrees.eorIndirectX b
  | .eorIndirectY b => RowAgrees.eorIndirectY b
  | .lsrAccumulator => RowAgrees.lsrAccumulator
  | .lsrZeroPage b => RowAgrees.lsrZeroPage b
  | .lsrZeroPageX b => RowAgrees.lsrZeroPageX b
  | .lsrAbsolute w => RowAgrees.lsrAbsolute w
  | .lsrAbsoluteX w => RowAgrees.lsrAbsoluteX w
  | .rolAccumulator => RowAgrees.rolAccumulator
  | .rolZeroPage b => RowAgrees.rolZeroPage b
  | .rolZeroPageX b => RowAgrees.rolZeroPageX b
  | .rolAbsolute w => RowAgrees.rolAbsolute w
  | .rolAbsoluteX w => RowAgrees.rolAbsoluteX w
  | .rorAccumulator => RowAgrees.rorAccumulator
  | .rorZeroPage b => RowAgrees.rorZeroPage b
  | .rorZeroPageX b => RowAgrees.rorZeroPageX b
  | .rorAbsolute w => RowAgrees.rorAbsolute w
  | .rorAbsoluteX w => RowAgrees.rorAbsoluteX w
  | .iny => RowAgrees.iny
  | .dex => RowAgrees.dex
  | .dey => RowAgrees.dey
  | .incZeroPage b => RowAgrees.incZeroPage b
  | .incZeroPageX b => RowAgrees.incZeroPageX b
  | .incAbsolute w => RowAgrees.incAbsolute w
  | .incAbsoluteX w => RowAgrees.incAbsoluteX w
  | .decZeroPage b => RowAgrees.decZeroPage b
  | .decZeroPageX b => RowAgrees.decZeroPageX b
  | .decAbsolute w => RowAgrees.decAbsolute w
  | .decAbsoluteX w => RowAgrees.decAbsoluteX w
  | .cmpImmediate v => RowAgrees.cmpImmediate v
  | .cmpZeroPage b => RowAgrees.cmpZeroPage b
  | .cmpZeroPageX b => RowAgrees.cmpZeroPageX b
  | .cmpAbsolute w => RowAgrees.cmpAbsolute w
  | .cmpAbsoluteX w => RowAgrees.cmpAbsoluteX w
  | .cmpAbsoluteY w => RowAgrees.cmpAbsoluteY w
  | .cmpIndirectX b => RowAgrees.cmpIndirectX b
  | .cmpIndirectY b => RowAgrees.cmpIndirectY b
  | .cpxImmediate v => RowAgrees.cpxImmediate v
  | .cpxZeroPage b => RowAgrees.cpxZeroPage b
  | .cpxAbsolute w => RowAgrees.cpxAbsolute w
  | .cpyImmediate v => RowAgrees.cpyImmediate v
  | .cpyZeroPage b => RowAgrees.cpyZeroPage b
  | .cpyAbsolute w => RowAgrees.cpyAbsolute w
  | .bcs b => RowAgrees.bcs b
  | .beq b => RowAgrees.beq b
  | .bne b => RowAgrees.bne b
  | .bmi b => RowAgrees.bmi b
  | .bpl b => RowAgrees.bpl b
  | .jmp w => RowAgrees.jmp w
  | .nop => RowAgrees.nop
  | .clc => RowAgrees.clc
  | .sec => RowAgrees.sec
  | .cli => RowAgrees.cli
  | .sei => RowAgrees.sei
  | .cld => RowAgrees.cld
  | .sed => RowAgrees.sed

/-- RowBuilds holds of every instruction. -/
theorem RowBuilds.every : ∀ i : Instr, RowBuilds.Statement i
  | .ldaImmediate v => RowBuilds.ldaImmediate v
  | .ldaZeroPage b => RowBuilds.ldaZeroPage b
  | .ldaZeroPageX b => RowBuilds.ldaZeroPageX b
  | .ldaAbsolute w => RowBuilds.ldaAbsolute w
  | .ldaAbsoluteX w => RowBuilds.ldaAbsoluteX w
  | .ldaAbsoluteY w => RowBuilds.ldaAbsoluteY w
  | .ldaIndirectX b => RowBuilds.ldaIndirectX b
  | .ldaIndirectY b => RowBuilds.ldaIndirectY b
  | .andImmediate v => RowBuilds.andImmediate v
  | .andZeroPage b => RowBuilds.andZeroPage b
  | .andZeroPageX b => RowBuilds.andZeroPageX b
  | .andAbsolute w => RowBuilds.andAbsolute w
  | .andAbsoluteX w => RowBuilds.andAbsoluteX w
  | .andAbsoluteY w => RowBuilds.andAbsoluteY w
  | .andIndirectX b => RowBuilds.andIndirectX b
  | .andIndirectY b => RowBuilds.andIndirectY b
  | .oraImmediate v => RowBuilds.oraImmediate v
  | .oraZeroPage b => RowBuilds.oraZeroPage b
  | .oraZeroPageX b => RowBuilds.oraZeroPageX b
  | .oraAbsolute w => RowBuilds.oraAbsolute w
  | .oraAbsoluteX w => RowBuilds.oraAbsoluteX w
  | .oraAbsoluteY w => RowBuilds.oraAbsoluteY w
  | .oraIndirectX b => RowBuilds.oraIndirectX b
  | .oraIndirectY b => RowBuilds.oraIndirectY b
  | .aslAccumulator => RowBuilds.aslAccumulator
  | .aslZeroPage b => RowBuilds.aslZeroPage b
  | .aslZeroPageX b => RowBuilds.aslZeroPageX b
  | .aslAbsolute w => RowBuilds.aslAbsolute w
  | .aslAbsoluteX w => RowBuilds.aslAbsoluteX w
  | .tax => RowBuilds.tax
  | .inx => RowBuilds.inx
  | .bcc b => RowBuilds.bcc b
  | .brk => RowBuilds.brk
  | .ldxImmediate v => RowBuilds.ldxImmediate v
  | .ldxZeroPage b => RowBuilds.ldxZeroPage b
  | .ldxZeroPageY b => RowBuilds.ldxZeroPageY b
  | .ldxAbsolute w => RowBuilds.ldxAbsolute w
  | .ldxAbsoluteY w => RowBuilds.ldxAbsoluteY w
  | .ldyImmediate v => RowBuilds.ldyImmediate v
  | .ldyZeroPage b => RowBuilds.ldyZeroPage b
  | .ldyZeroPageX b => RowBuilds.ldyZeroPageX b
  | .ldyAbsolute w => RowBuilds.ldyAbsolute w
  | .ldyAbsoluteX w => RowBuilds.ldyAbsoluteX w
  | .staZeroPage b => RowBuilds.staZeroPage b
  | .staZeroPageX b => RowBuilds.staZeroPageX b
  | .staAbsolute w => RowBuilds.staAbsolute w
  | .staAbsoluteX w => RowBuilds.staAbsoluteX w
  | .staAbsoluteY w => RowBuilds.staAbsoluteY w
  | .staIndirectX b => RowBuilds.staIndirectX b
  | .staIndirectY b => RowBuilds.staIndirectY b
  | .stxZeroPage b => RowBuilds.stxZeroPage b
  | .stxZeroPageY b => RowBuilds.stxZeroPageY b
  | .stxAbsolute w => RowBuilds.stxAbsolute w
  | .styZeroPage b => RowBuilds.styZeroPage b
  | .styZeroPageX b => RowBuilds.styZeroPageX b
  | .styAbsolute w => RowBuilds.styAbsolute w
  | .tay => RowBuilds.tay
  | .txa => RowBuilds.txa
  | .tya => RowBuilds.tya
  | .eorImmediate v => RowBuilds.eorImmediate v
  | .eorZeroPage b => RowBuilds.eorZeroPage b
  | .eorZeroPageX b => RowBuilds.eorZeroPageX b
  | .eorAbsolute w => RowBuilds.eorAbsolute w
  | .eorAbsoluteX w => RowBuilds.eorAbsoluteX w
  | .eorAbsoluteY w => RowBuilds.eorAbsoluteY w
  | .eorIndirectX b => RowBuilds.eorIndirectX b
  | .eorIndirectY b => RowBuilds.eorIndirectY b
  | .lsrAccumulator => RowBuilds.lsrAccumulator
  | .lsrZeroPage b => RowBuilds.lsrZeroPage b
  | .lsrZeroPageX b => RowBuilds.lsrZeroPageX b
  | .lsrAbsolute w => RowBuilds.lsrAbsolute w
  | .lsrAbsoluteX w => RowBuilds.lsrAbsoluteX w
  | .rolAccumulator => RowBuilds.rolAccumulator
  | .rolZeroPage b => RowBuilds.rolZeroPage b
  | .rolZeroPageX b => RowBuilds.rolZeroPageX b
  | .rolAbsolute w => RowBuilds.rolAbsolute w
  | .rolAbsoluteX w => RowBuilds.rolAbsoluteX w
  | .rorAccumulator => RowBuilds.rorAccumulator
  | .rorZeroPage b => RowBuilds.rorZeroPage b
  | .rorZeroPageX b => RowBuilds.rorZeroPageX b
  | .rorAbsolute w => RowBuilds.rorAbsolute w
  | .rorAbsoluteX w => RowBuilds.rorAbsoluteX w
  | .iny => RowBuilds.iny
  | .dex => RowBuilds.dex
  | .dey => RowBuilds.dey
  | .incZeroPage b => RowBuilds.incZeroPage b
  | .incZeroPageX b => RowBuilds.incZeroPageX b
  | .incAbsolute w => RowBuilds.incAbsolute w
  | .incAbsoluteX w => RowBuilds.incAbsoluteX w
  | .decZeroPage b => RowBuilds.decZeroPage b
  | .decZeroPageX b => RowBuilds.decZeroPageX b
  | .decAbsolute w => RowBuilds.decAbsolute w
  | .decAbsoluteX w => RowBuilds.decAbsoluteX w
  | .cmpImmediate v => RowBuilds.cmpImmediate v
  | .cmpZeroPage b => RowBuilds.cmpZeroPage b
  | .cmpZeroPageX b => RowBuilds.cmpZeroPageX b
  | .cmpAbsolute w => RowBuilds.cmpAbsolute w
  | .cmpAbsoluteX w => RowBuilds.cmpAbsoluteX w
  | .cmpAbsoluteY w => RowBuilds.cmpAbsoluteY w
  | .cmpIndirectX b => RowBuilds.cmpIndirectX b
  | .cmpIndirectY b => RowBuilds.cmpIndirectY b
  | .cpxImmediate v => RowBuilds.cpxImmediate v
  | .cpxZeroPage b => RowBuilds.cpxZeroPage b
  | .cpxAbsolute w => RowBuilds.cpxAbsolute w
  | .cpyImmediate v => RowBuilds.cpyImmediate v
  | .cpyZeroPage b => RowBuilds.cpyZeroPage b
  | .cpyAbsolute w => RowBuilds.cpyAbsolute w
  | .bcs b => RowBuilds.bcs b
  | .beq b => RowBuilds.beq b
  | .bne b => RowBuilds.bne b
  | .bmi b => RowBuilds.bmi b
  | .bpl b => RowBuilds.bpl b
  | .jmp w => RowBuilds.jmp w
  | .nop => RowBuilds.nop
  | .clc => RowBuilds.clc
  | .sec => RowBuilds.sec
  | .cli => RowBuilds.cli
  | .sei => RowBuilds.sei
  | .cld => RowBuilds.cld
  | .sed => RowBuilds.sed

end Sys2Proof.Laws
end

