-- ==== Sys2Proof/Laws/Decode.lean ====
section
/-! SUPPORT. What the table lookup and the decoder can answer. -/

namespace Sys2Proof

open Sys2Proof.Machine (lo hi concat lo_concat hi_concat)

/-- A found row is a row of the table, under its own byte value. -/
theorem findRow_some {code : Byte} {r : TableRow} (h : findRow code = some r) :
    r ∈ dispatchTable ∧ r.code = code :=
  ⟨List.mem_of_find?_eq_some h, by simpa using List.find?_some h⟩

theorem lookup_some {p : OpcodeProfile} {code : Byte} {r : TableRow} :
    lookup p code = some r ↔ findRow code = some r ∧ r.populatedIn p = true := by
  unfold lookup
  cases findRow code with
  | none => simp
  | some r' =>
    by_cases hp : r'.populatedIn p = true
    · simp only [hp, ↓reduceIte, Option.some.injEq]
      exact ⟨fun e => ⟨e, e ▸ hp⟩, fun e => e.1⟩
    · simp only [hp, Bool.false_eq_true, ↓reduceIte, reduceCtorEq, Option.some.injEq, false_iff, not_and]
      exact fun e h => hp (e ▸ h)

/-! ### What each row builds -/

/-- A row's handler builds instructions with the row's own code, mnemonic, mode and operand bytes. -/
def TableRow.Builds (r : TableRow) : Prop :=
  match r.handler with
  | .f1 i => encode i = [r.code] ∧ i.mnemonic = r.desc.mnemonic ∧ i.operand.mode = r.desc.mode
  | .f2 make => ∀ b, encode (make b) = [r.code, b] ∧ (make b).mnemonic = r.desc.mnemonic ∧
      (make b).operand.mode = r.desc.mode
  | .f3 make => ∀ w, encode (make w) = [r.code, lo w, hi w] ∧ (make w).mnemonic = r.desc.mnemonic ∧
      (make w).operand.mode = r.desc.mode

theorem builds_f1 {c : Byte} {m : Mnemonic} {mode : AddressMode} {n k : Nat} {p : OpcodeProfile} {i : Instr}
    (he : encode i = [c]) (hm : i.mnemonic = m) (ho : i.operand.mode = mode) :
    (TableRow.of c m mode n k p (.f1 i)).Builds :=
  ⟨he, hm, ho⟩

theorem builds_f2 {c : Byte} {m : Mnemonic} {mode : AddressMode} {n k : Nat} {p : OpcodeProfile}
    {mk : Byte → Instr} (he : ∀ b, encode (mk b) = [c, b]) (hm : ∀ b, (mk b).mnemonic = m)
    (ho : ∀ b, (mk b).operand.mode = mode) : (TableRow.of c m mode n k p (.f2 mk)).Builds :=
  fun b => ⟨he b, hm b, ho b⟩

theorem builds_f3 {c : Byte} {m : Mnemonic} {mode : AddressMode} {n k : Nat} {p : OpcodeProfile}
    {mk : Word → Instr} (he : ∀ w, encode (mk w) = [c, lo w, hi w]) (hm : ∀ w, (mk w).mnemonic = m)
    (ho : ∀ w, (mk w).operand.mode = mode) : (TableRow.of c m mode n k p (.f3 mk)).Builds :=
  fun w => ⟨he w, hm w, ho w⟩

theorem namedLdaRows_build : ∀ r ∈ namedLdaRows, r.Builds := by
  simp only [namedLdaRows, List.forall_mem_cons]
  and_intros <;>
    first
    | rfl
    | exact builds_f1 rfl rfl rfl
    | exact builds_f2 (fun _ => rfl) (fun _ => rfl) (fun _ => rfl)
    | exact builds_f3 (fun _ => rfl) (fun _ => rfl) (fun _ => rfl)
    | exact List.forall_mem_nil _

theorem namedAndRows_build : ∀ r ∈ namedAndRows, r.Builds := by
  simp only [namedAndRows, List.forall_mem_cons]
  and_intros <;>
    first
    | rfl
    | exact builds_f1 rfl rfl rfl
    | exact builds_f2 (fun _ => rfl) (fun _ => rfl) (fun _ => rfl)
    | exact builds_f3 (fun _ => rfl) (fun _ => rfl) (fun _ => rfl)
    | exact List.forall_mem_nil _

theorem namedOraRows_build : ∀ r ∈ namedOraRows, r.Builds := by
  simp only [namedOraRows, List.forall_mem_cons]
  and_intros <;>
    first
    | rfl
    | exact builds_f1 rfl rfl rfl
    | exact builds_f2 (fun _ => rfl) (fun _ => rfl) (fun _ => rfl)
    | exact builds_f3 (fun _ => rfl) (fun _ => rfl) (fun _ => rfl)
    | exact List.forall_mem_nil _

theorem namedRestRows_build : ∀ r ∈ namedRestRows, r.Builds := by
  simp only [namedRestRows, List.forall_mem_cons]
  and_intros <;>
    first
    | rfl
    | exact builds_f1 rfl rfl rfl
    | exact builds_f2 (fun _ => rfl) (fun _ => rfl) (fun _ => rfl)
    | exact builds_f3 (fun _ => rfl) (fun _ => rfl) (fun _ => rfl)
    | exact List.forall_mem_nil _

theorem extLoadsRows_build : ∀ r ∈ extLoadsRows, r.Builds := by
  simp only [extLoadsRows, List.forall_mem_cons]
  and_intros <;>
    first
    | rfl
    | exact builds_f1 rfl rfl rfl
    | exact builds_f2 (fun _ => rfl) (fun _ => rfl) (fun _ => rfl)
    | exact builds_f3 (fun _ => rfl) (fun _ => rfl) (fun _ => rfl)
    | exact List.forall_mem_nil _

theorem extStoresRows_build : ∀ r ∈ extStoresRows, r.Builds := by
  simp only [extStoresRows, List.forall_mem_cons]
  and_intros <;>
    first
    | rfl
    | exact builds_f1 rfl rfl rfl
    | exact builds_f2 (fun _ => rfl) (fun _ => rfl) (fun _ => rfl)
    | exact builds_f3 (fun _ => rfl) (fun _ => rfl) (fun _ => rfl)
    | exact List.forall_mem_nil _

theorem extTransfersRows_build : ∀ r ∈ extTransfersRows, r.Builds := by
  simp only [extTransfersRows, List.forall_mem_cons]
  and_intros <;>
    first
    | rfl
    | exact builds_f1 rfl rfl rfl
    | exact builds_f2 (fun _ => rfl) (fun _ => rfl) (fun _ => rfl)
    | exact builds_f3 (fun _ => rfl) (fun _ => rfl) (fun _ => rfl)
    | exact List.forall_mem_nil _

theorem extEorRows_build : ∀ r ∈ extEorRows, r.Builds := by
  simp only [extEorRows, List.forall_mem_cons]
  and_intros <;>
    first
    | rfl
    | exact builds_f1 rfl rfl rfl
    | exact builds_f2 (fun _ => rfl) (fun _ => rfl) (fun _ => rfl)
    | exact builds_f3 (fun _ => rfl) (fun _ => rfl) (fun _ => rfl)
    | exact List.forall_mem_nil _

theorem extShiftsRows_build : ∀ r ∈ extShiftsRows, r.Builds := by
  simp only [extShiftsRows, List.forall_mem_cons]
  and_intros <;>
    first
    | rfl
    | exact builds_f1 rfl rfl rfl
    | exact builds_f2 (fun _ => rfl) (fun _ => rfl) (fun _ => rfl)
    | exact builds_f3 (fun _ => rfl) (fun _ => rfl) (fun _ => rfl)
    | exact List.forall_mem_nil _

theorem extCountsRows_build : ∀ r ∈ extCountsRows, r.Builds := by
  simp only [extCountsRows, List.forall_mem_cons]
  and_intros <;>
    first
    | rfl
    | exact builds_f1 rfl rfl rfl
    | exact builds_f2 (fun _ => rfl) (fun _ => rfl) (fun _ => rfl)
    | exact builds_f3 (fun _ => rfl) (fun _ => rfl) (fun _ => rfl)
    | exact List.forall_mem_nil _

theorem extComparesRows_build : ∀ r ∈ extComparesRows, r.Builds := by
  simp only [extComparesRows, List.forall_mem_cons]
  and_intros <;>
    first
    | rfl
    | exact builds_f1 rfl rfl rfl
    | exact builds_f2 (fun _ => rfl) (fun _ => rfl) (fun _ => rfl)
    | exact builds_f3 (fun _ => rfl) (fun _ => rfl) (fun _ => rfl)
    | exact List.forall_mem_nil _

theorem extControlRows_build : ∀ r ∈ extControlRows, r.Builds := by
  simp only [extControlRows, List.forall_mem_cons]
  and_intros <;>
    first
    | rfl
    | exact builds_f1 rfl rfl rfl
    | exact builds_f2 (fun _ => rfl) (fun _ => rfl) (fun _ => rfl)
    | exact builds_f3 (fun _ => rfl) (fun _ => rfl) (fun _ => rfl)
    | exact List.forall_mem_nil _

theorem dispatchTable_build : ∀ r ∈ dispatchTable, r.Builds := by
  simp only [dispatchTable, List.forall_mem_append]
  and_intros
  · exact namedLdaRows_build
  · exact namedAndRows_build
  · exact namedOraRows_build
  · exact namedRestRows_build
  · exact extLoadsRows_build
  · exact extStoresRows_build
  · exact extTransfersRows_build
  · exact extEorRows_build
  · exact extShiftsRows_build
  · exact extCountsRows_build
  · exact extComparesRows_build
  · exact extControlRows_build

/-- A row's profile is the smaller one that its mnemonic belongs to (R5). -/
theorem dispatchTable_profile :
    ∀ r ∈ dispatchTable, r.profile = if r.desc.mnemonic.inNamed then .named else .extended := by
  decide

/-- What the decoder builds from a row: the row's opcode byte and operand bytes are the instruction's encoding. -/
theorem assemble_encode {r : TableRow} (hr : r ∈ dispatchTable) {bytes rest : List Byte} {i : Instr}
    (h : r.handler.assemble r.code bytes = .ok (i, rest)) :
    r.code :: bytes = encode i ++ rest ∧ i.mnemonic = r.desc.mnemonic ∧ i.operand.mode = r.desc.mode := by
  have hb := dispatchTable_build r hr
  obtain ⟨code, desc, profile, handler⟩ := r
  cases handler with
  | f1 i' =>
    cases h
    exact ⟨by rw [hb.1]; rfl, hb.2⟩
  | f2 mk =>
    cases bytes with
    | nil => cases h
    | cons b bs =>
      cases h
      exact ⟨by rw [(hb b).1]; rfl, (hb b).2⟩
  | f3 mk =>
    match bytes, h with
    | [], h => cases h
    | [_], h => cases h
    | l :: u :: bs, h =>
      cases h
      have hw := (hb (concat u l)).1
      rw [lo_concat, hi_concat] at hw
      exact ⟨by rw [hw]; rfl, (hb (concat u l)).2⟩

/-- A mnemonic belongs to the profiles that its row is populated in. -/
theorem wellFormed_of_row {r : TableRow} (hr : r ∈ dispatchTable) {p : OpcodeProfile}
    (hp : r.populatedIn p = true) {i : Instr} (hi : i.mnemonic = r.desc.mnemonic) : i.wellFormed p = true := by
  cases p with
  | extended => rfl
  | named =>
    have hprof := dispatchTable_profile r hr
    rw [Instr.wellFormed, hi]
    by_contra hn
    rw [if_neg hn] at hprof
    simp [TableRow.populatedIn, hprof] at hp

/-- The instruction's own row is populated in the profiles that it is well-formed in. -/
theorem lookup_opcode {p : OpcodeProfile} {i : Instr} (h : i.wellFormed p = true) :
    ∃ r, lookup p i.opcode = some r ∧
      ∀ rest, r.handler.assemble i.opcode (i.operand.encoding ++ rest) = .ok (i, rest) := by
  obtain ⟨r, hf, -, -, -, hprof, -⟩ := Laws.RowAgrees.every i
  obtain ⟨r', hf', hb⟩ := Laws.RowBuilds.every i
  obtain rfl : r' = r := Option.some.inj (hf'.symm.trans hf)
  refine ⟨r', lookup_some.mpr ⟨hf, ?_⟩, hb⟩
  cases p with
  | extended => rfl
  | named =>
    simp only [Instr.wellFormed] at h
    simp [TableRow.populatedIn, hprof, h]

/-- A byte value is populated exactly where some well-formed instruction has it as its opcode byte. -/
theorem lookup_isSome_iff (p : OpcodeProfile) (c : Byte) :
    (lookup p c).isSome = true ↔ ∃ i : Instr, i.wellFormed p = true ∧ i.opcode = c := by
  constructor
  · intro h
    obtain ⟨r, hr⟩ := Option.isSome_iff_exists.mp h
    obtain ⟨hf, hp⟩ := lookup_some.mp hr
    obtain ⟨hm, rfl⟩ := findRow_some hf
    have hex : ∃ i rest, r.handler.assemble r.code [0, 0] = .ok (i, rest) := by
      cases r.handler <;> exact ⟨_, _, rfl⟩
    obtain ⟨i, rest, hi⟩ := hex
    obtain ⟨he, hmn, -⟩ := assemble_encode hm hi
    exact ⟨i, wellFormed_of_row hm hp hmn, (List.cons.inj he).1.symm⟩
  · rintro ⟨i, hw, rfl⟩
    obtain ⟨r, hr, -⟩ := lookup_opcode hw
    rw [hr]
    rfl

/-- The opcode byte 0x00 is BRK's alone (R53). -/
theorem opcode_eq_zero_iff (i : Instr) : i.opcode = 0x00 ↔ i = .brk := by
  cases i <;> simp [Instr.opcode]

/-- An instruction's length is that of its mode (R50). -/
theorem encode_length (i : Instr) : (encode i).length = i.operand.bytes := by
  cases i <;> rfl

/-! ### The decoder -/

theorem decode_absent {p : OpcodeProfile} {c : Byte} (h : lookup p c = none) (rest : List Byte) :
    decode p (c :: rest) = .error (.absent c) := by
  rw [decode, h]

theorem decode_row {p : OpcodeProfile} {c : Byte} {r : TableRow} (h : lookup p c = some r) (rest : List Byte) :
    decode p (c :: rest) = r.handler.assemble c rest := by
  rw [decode, h]

/-- The two outcomes of decoding three bytes: no operand is cut short. -/
theorem decode_three (p : OpcodeProfile) (c b1 b2 : Byte) :
    (∃ i rest, decode p [c, b1, b2] = .ok (i, rest)) ∨
      (decode p [c, b1, b2] = .error (.absent c) ∧ lookup p c = none) := by
  cases h : lookup p c with
  | none => exact .inr ⟨decode_absent h _, rfl⟩
  | some r =>
    rw [decode_row h]
    refine .inl ?_
    cases r.handler <;> exact ⟨_, _, rfl⟩

end Sys2Proof
end

