-- ==== Sys2Proof/Laws/Flags.lean ====
section
/-! SUPPORT. The laws of the status unit. -/

namespace Sys2Proof.Machine

theorem Status.set_test_self (p : Status) (f : Flag) : p.set f (p.test f) = p := by cases f <;> rfl

theorem Status.set_set (p : Status) (f : Flag) (on on' : Bool) : (p.set f on).set f on' = p.set f on' := by
  cases f <;> rfl

@[simp] theorem Status.setZN_c (p : Status) (v : Byte) : (p.setZN v).c = p.c := rfl
@[simp] theorem Status.setZN_z (p : Status) (v : Byte) : (p.setZN v).z = (v == 0) := rfl
@[simp] theorem Status.setZN_i (p : Status) (v : Byte) : (p.setZN v).i = p.i := rfl
@[simp] theorem Status.setZN_d (p : Status) (v : Byte) : (p.setZN v).d = p.d := rfl
@[simp] theorem Status.setZN_b (p : Status) (v : Byte) : (p.setZN v).b = p.b := rfl
@[simp] theorem Status.setZN_v (p : Status) (v : Byte) : (p.setZN v).v = p.v := rfl
@[simp] theorem Status.setZN_n (p : Status) (v : Byte) : (p.setZN v).n = v.getLsbD 7 := rfl

@[simp] theorem Status.setCarry_c (p : Status) (on : Bool) : (p.setCarry on).c = on := rfl
@[simp] theorem Status.setCarry_z (p : Status) (on : Bool) : (p.setCarry on).z = p.z := rfl
@[simp] theorem Status.setCarry_i (p : Status) (on : Bool) : (p.setCarry on).i = p.i := rfl
@[simp] theorem Status.setCarry_d (p : Status) (on : Bool) : (p.setCarry on).d = p.d := rfl
@[simp] theorem Status.setCarry_b (p : Status) (on : Bool) : (p.setCarry on).b = p.b := rfl
@[simp] theorem Status.setCarry_v (p : Status) (on : Bool) : (p.setCarry on).v = p.v := rfl
@[simp] theorem Status.setCarry_n (p : Status) (on : Bool) : (p.setCarry on).n = p.n := rfl

/-- Bit 7 as a bound. -/
theorem getLsbD_seven (v : Byte) : v.getLsbD 7 = decide (128 ≤ v.toNat) := by
  revert v
  decide

theorem beq_zero_toNat (v : Byte) : (v == 0) = decide (v.toNat = 0) := by
  revert v
  decide

end Sys2Proof.Machine
end

