-- ==== Sys2Proof/Laws/Memory.lean ====
section
/-! SUPPORT. The laws of memory: a write reads back, it leaves every other byte alone, every operation keeps the
canonical form, and a canonical list is fixed by what it reads as. -/

namespace Sys2Proof.Machine

/-! ### Cells -/

theorem Memory.wfFrom_cons {low k : Nat} {v : Byte} {rest : List Host.Cell} :
    Memory.wfFrom low ((k, v) :: rest) = true ↔
      low ≤ k ∧ k < 65536 ∧ v ≠ Memory.fill ∧ Memory.wfFrom (k + 1) rest = true := by
  simp [Memory.wfFrom, and_assoc]

theorem Memory.wfFrom_mono {low low' : Nat} (h : low' ≤ low) :
    ∀ {m : List Host.Cell}, Memory.wfFrom low m = true → Memory.wfFrom low' m = true
  | [], _ => rfl
  | (_, _) :: _, hm => by
    rw [Memory.wfFrom_cons] at hm ⊢
    exact ⟨h.trans hm.1, hm.2⟩

/-- Below its first address a canonical list reads as nothing listed. -/
theorem Memory.readCell_below {a : Nat} :
    ∀ {m : List Host.Cell} {low : Nat}, Memory.wfFrom low m = true → a < low → Memory.readCell m a = Memory.fill
  | [], _, _, _ => rfl
  | (k, _) :: rest, low, hm, ha => by
    rw [Memory.wfFrom_cons] at hm
    have hk : k ≠ a := by omega
    rw [Memory.readCell, if_neg hk]
    exact Memory.readCell_below hm.2.2.2 (by omega)

theorem Memory.readCell_consCell_other {a c : Nat} (h : c ≠ a) (b : Byte) (m : List Host.Cell) :
    Memory.readCell (Memory.consCell a b m) c = Memory.readCell m c := by
  unfold Memory.consCell
  split
  · rfl
  · rw [Memory.readCell, if_neg h.symm]

theorem Memory.readCell_consCell_same {a low : Nat} {b : Byte} {m : List Host.Cell}
    (hm : Memory.wfFrom low m = true) (ha : a < low) : Memory.readCell (Memory.consCell a b m) a = b := by
  unfold Memory.consCell
  split
  · rename_i hb
    rw [Memory.readCell_below hm ha, hb]
  · simp [Memory.readCell]

theorem Memory.wfFrom_consCell {a low : Nat} {b : Byte} {m : List Host.Cell} (hlow : low ≤ a) (ha : a < 65536)
    (hm : Memory.wfFrom (a + 1) m = true) : Memory.wfFrom low (Memory.consCell a b m) = true := by
  unfold Memory.consCell
  split
  · exact Memory.wfFrom_mono (by omega) hm
  · rename_i hb
    exact Memory.wfFrom_cons.mpr ⟨hlow, ha, hb, hm⟩

theorem Memory.readCell_writeCell_other {a c : Nat} (h : c ≠ a) (b : Byte) :
    ∀ m : List Host.Cell, Memory.readCell (Memory.writeCell m a b) c = Memory.readCell m c
  | [] => Memory.readCell_consCell_other h b []
  | (k, v) :: rest => by
    rw [Memory.writeCell]
    split
    · exact Memory.readCell_consCell_other h b _
    · split
      · rename_i hk
        rw [Memory.readCell_consCell_other h, Memory.readCell, if_neg (by omega)]
      · rw [Memory.readCell, Memory.readCell, Memory.readCell_writeCell_other h b rest]

theorem Memory.readCell_writeCell_same {a : Nat} {b : Byte} :
    ∀ {m : List Host.Cell} {low : Nat}, Memory.wfFrom low m = true →
      Memory.readCell (Memory.writeCell m a b) a = b
  | [], _, _ => Memory.readCell_consCell_same (low := a + 1) rfl (by omega)
  | (k, v) :: rest, low, hm => by
    have hr := (Memory.wfFrom_cons.mp hm).2.2.2
    rw [Memory.writeCell]
    split
    · rename_i hk
      exact Memory.readCell_consCell_same (low := k)
        (Memory.wfFrom_cons.mpr ⟨le_rfl, (Memory.wfFrom_cons.mp hm).2⟩) hk
    · split
      · rename_i hk
        exact Memory.readCell_consCell_same hr (by omega)
      · rw [Memory.readCell, if_neg (by omega)]
        exact Memory.readCell_writeCell_same hr

theorem Memory.wfFrom_writeCell {a : Nat} {b : Byte} (ha : a < 65536) :
    ∀ {m : List Host.Cell} {low : Nat}, low ≤ a → Memory.wfFrom low m = true →
      Memory.wfFrom low (Memory.writeCell m a b) = true
  | [], _, hlow, _ => Memory.wfFrom_consCell hlow ha rfl
  | (k, v) :: rest, low, hlow, hm => by
    obtain ⟨h1, h2, h3, h4⟩ := Memory.wfFrom_cons.mp hm
    rw [Memory.writeCell]
    split
    · exact Memory.wfFrom_consCell hlow ha (Memory.wfFrom_cons.mpr ⟨by omega, h2, h3, h4⟩)
    · split
      · rename_i hk
        exact Memory.wfFrom_consCell hlow ha (hk ▸ h4)
      · exact Memory.wfFrom_cons.mpr ⟨h1, h2, h3, Memory.wfFrom_writeCell ha (by omega) h4⟩

/-- Two lists canonical from one address on that read alike everywhere are the same list. -/
theorem Memory.wfFrom_ext :
    ∀ {m n : List Host.Cell} {low : Nat}, Memory.wfFrom low m = true → Memory.wfFrom low n = true →
      (∀ a, a < 65536 → Memory.readCell m a = Memory.readCell n a) → m = n
  | [], [], _, _, _, _ => rfl
  | [], (k, v) :: rest, _, _, hn, h => by
    obtain ⟨-, h2, h3, -⟩ := Memory.wfFrom_cons.mp hn
    exact absurd (by simpa [Memory.readCell] using (h k h2).symm) h3
  | (k, v) :: rest, [], _, hm, _, h => by
    obtain ⟨-, h2, h3, -⟩ := Memory.wfFrom_cons.mp hm
    exact absurd (by simpa [Memory.readCell] using h k h2) h3
  | (k, v) :: rest, (k', v') :: rest', low, hm, hn, h => by
    obtain ⟨m1, m2, m3, m4⟩ := Memory.wfFrom_cons.mp hm
    obtain ⟨n1, n2, n3, n4⟩ := Memory.wfFrom_cons.mp hn
    have hkk : k = k' := by
      rcases Nat.lt_trichotomy k k' with hlt | heq | hgt
      · have := h k m2
        rw [Memory.readCell, if_pos rfl, Memory.readCell, if_neg (by omega),
          Memory.readCell_below n4 (by omega)] at this
        exact absurd this m3
      · exact heq
      · have := h k' n2
        rw [Memory.readCell, if_neg (by omega), Memory.readCell_below m4 (by omega), Memory.readCell,
          if_pos rfl] at this
        exact absurd this.symm n3
    subst hkk
    have hv : v = v' := by simpa [Memory.readCell] using h k m2
    subst hv
    congr 1
    refine Memory.wfFrom_ext m4 n4 fun a ha => ?_
    by_cases hak : a = k
    · rw [hak, Memory.readCell_below m4 (by omega), Memory.readCell_below n4 (by omega)]
    · simpa [Memory.readCell, Ne.symm hak] using h a ha

/-! ### Bytes -/

@[simp] theorem Memory.wf_nil : Memory.wf [] = true := rfl

@[simp] theorem Memory.read_nil (a : Word) : Memory.read [] a = Memory.fill := rfl

theorem Memory.read_write_same {m : List Host.Cell} (hm : Memory.wf m = true) (a : Word) (b : Byte) :
    Memory.read (Memory.write m a b) a = b :=
  Memory.readCell_writeCell_same hm

/-- The frame of a write; it needs no canonical form. -/
theorem Memory.read_write_other {m : List Host.Cell} {a c : Word} (h : c ≠ a) (b : Byte) :
    Memory.read (Memory.write m a b) c = Memory.read m c :=
  Memory.readCell_writeCell_other (fun e => h (BitVec.eq_of_toNat_eq e)) b m

theorem Memory.read_write {m : List Host.Cell} (hm : Memory.wf m = true) (a c : Word) (b : Byte) :
    Memory.read (Memory.write m a b) c = if c = a then b else Memory.read m c := by
  split
  · subst c
    exact Memory.read_write_same hm a b
  · exact Memory.read_write_other ‹_› b

theorem Memory.wf_write {m : List Host.Cell} (hm : Memory.wf m = true) (a : Word) (b : Byte) :
    Memory.wf (Memory.write m a b) = true :=
  Memory.wfFrom_writeCell a.isLt (Nat.zero_le _) hm

theorem Memory.wf_write16 {m : List Host.Cell} (hm : Memory.wf m = true) (a w : Word) :
    Memory.wf (Memory.write16 m a w) = true :=
  Memory.wf_write (Memory.wf_write hm _ _) _ _

/-- Canonical lists with the same bytes are equal data. -/
theorem Memory.ext_of_wf {m n : List Host.Cell} (hm : Memory.wf m = true) (hn : Memory.wf n = true)
    (h : ∀ a : Word, Memory.read m a = Memory.read n a) : m = n :=
  Memory.wfFrom_ext hm hn fun a ha => by
    have := h (BitVec.ofNat 16 a)
    simpa [Memory.read, Nat.mod_eq_of_lt ha] using this

/-! ### Slices and images -/

theorem Memory.wf_writeBytes : ∀ (bytes : List Byte) (m : List Host.Cell) (a : Word), Memory.wf m = true →
    Memory.wf (Memory.writeBytes m a bytes) = true
  | [], _, _, hm => hm
  | b :: rest, m, a, hm => Memory.wf_writeBytes rest (Memory.write m a b) (a + 1) (Memory.wf_write hm a b)

theorem Memory.wfFrom_imageFrom (image : Word → Byte) :
    ∀ (n a : Nat), a + n ≤ 65536 → Memory.wfFrom a (Memory.imageFrom image a n) = true
  | 0, _, _ => rfl
  | n + 1, a, h =>
    Memory.wfFrom_consCell le_rfl (by omega) (Memory.wfFrom_imageFrom image n (a + 1) (by omega))

theorem Memory.readCell_imageFrom (image : Word → Byte) :
    ∀ (n a c : Nat), a + n ≤ 65536 → a ≤ c → c < a + n →
      Memory.readCell (Memory.imageFrom image a n) c = image (BitVec.ofNat 16 c)
  | 0, _, _, _, _, _ => by omega
  | n + 1, a, c, h, h1, h2 => by
    rw [Memory.imageFrom]
    by_cases hc : c = a
    · subst hc
      exact Memory.readCell_consCell_same (Memory.wfFrom_imageFrom image n (c + 1) (by omega)) (by omega)
    · rw [Memory.readCell_consCell_other hc]
      exact Memory.readCell_imageFrom image n (a + 1) c (by omega) (by omega) (by omega)

end Sys2Proof.Machine
end

