-- ==== Sys2Proof/Laws/State.lean ====
section
/-! SUPPORT. One lemma per field and update of State, true by rfl, so that no proof unfolds a record update. -/

namespace Sys2Proof.Machine

@[simp] theorem State.writeByte_a (s : State) (a : Word) (b : Byte) : (s.writeByte a b).a = s.a := rfl
@[simp] theorem State.writeByte_x (s : State) (a : Word) (b : Byte) : (s.writeByte a b).x = s.x := rfl
@[simp] theorem State.writeByte_y (s : State) (a : Word) (b : Byte) : (s.writeByte a b).y = s.y := rfl
@[simp] theorem State.writeByte_p (s : State) (a : Word) (b : Byte) : (s.writeByte a b).p = s.p := rfl
@[simp] theorem State.writeByte_pc (s : State) (a : Word) (b : Byte) : (s.writeByte a b).pc = s.pc := rfl
@[simp] theorem State.writeByte_mem (s : State) (a : Word) (b : Byte) : (s.writeByte a b).mem = Memory.write s.mem a b := rfl
@[simp] theorem State.writeByte_run (s : State) (a : Word) (b : Byte) : (s.writeByte a b).run = s.run := rfl
@[simp] theorem State.writeByte_config (s : State) (a : Word) (b : Byte) : (s.writeByte a b).config = s.config := rfl

@[simp] theorem State.setStatus_a (s : State) (q : Status) : (s.setStatus q).a = s.a := rfl
@[simp] theorem State.setStatus_x (s : State) (q : Status) : (s.setStatus q).x = s.x := rfl
@[simp] theorem State.setStatus_y (s : State) (q : Status) : (s.setStatus q).y = s.y := rfl
@[simp] theorem State.setStatus_p (s : State) (q : Status) : (s.setStatus q).p = q := rfl
@[simp] theorem State.setStatus_pc (s : State) (q : Status) : (s.setStatus q).pc = s.pc := rfl
@[simp] theorem State.setStatus_mem (s : State) (q : Status) : (s.setStatus q).mem = s.mem := rfl
@[simp] theorem State.setStatus_run (s : State) (q : Status) : (s.setStatus q).run = s.run := rfl
@[simp] theorem State.setStatus_config (s : State) (q : Status) : (s.setStatus q).config = s.config := rfl

@[simp] theorem State.setFlag_a (s : State) (f : Flag) (on : Bool) : (s.setFlag f on).a = s.a := rfl
@[simp] theorem State.setFlag_x (s : State) (f : Flag) (on : Bool) : (s.setFlag f on).x = s.x := rfl
@[simp] theorem State.setFlag_y (s : State) (f : Flag) (on : Bool) : (s.setFlag f on).y = s.y := rfl
@[simp] theorem State.setFlag_p (s : State) (f : Flag) (on : Bool) : (s.setFlag f on).p = s.p.set f on := rfl
@[simp] theorem State.setFlag_pc (s : State) (f : Flag) (on : Bool) : (s.setFlag f on).pc = s.pc := rfl
@[simp] theorem State.setFlag_mem (s : State) (f : Flag) (on : Bool) : (s.setFlag f on).mem = s.mem := rfl
@[simp] theorem State.setFlag_run (s : State) (f : Flag) (on : Bool) : (s.setFlag f on).run = s.run := rfl
@[simp] theorem State.setFlag_config (s : State) (f : Flag) (on : Bool) : (s.setFlag f on).config = s.config := rfl

@[simp] theorem State.setCarry_a (s : State) (on : Bool) : (s.setCarry on).a = s.a := rfl
@[simp] theorem State.setCarry_x (s : State) (on : Bool) : (s.setCarry on).x = s.x := rfl
@[simp] theorem State.setCarry_y (s : State) (on : Bool) : (s.setCarry on).y = s.y := rfl
@[simp] theorem State.setCarry_p (s : State) (on : Bool) : (s.setCarry on).p = s.p.setCarry on := rfl
@[simp] theorem State.setCarry_pc (s : State) (on : Bool) : (s.setCarry on).pc = s.pc := rfl
@[simp] theorem State.setCarry_mem (s : State) (on : Bool) : (s.setCarry on).mem = s.mem := rfl
@[simp] theorem State.setCarry_run (s : State) (on : Bool) : (s.setCarry on).run = s.run := rfl
@[simp] theorem State.setCarry_config (s : State) (on : Bool) : (s.setCarry on).config = s.config := rfl

@[simp] theorem State.setZN_a (s : State) (v : Byte) : (s.setZN v).a = s.a := rfl
@[simp] theorem State.setZN_x (s : State) (v : Byte) : (s.setZN v).x = s.x := rfl
@[simp] theorem State.setZN_y (s : State) (v : Byte) : (s.setZN v).y = s.y := rfl
@[simp] theorem State.setZN_p (s : State) (v : Byte) : (s.setZN v).p = s.p.setZN v := rfl
@[simp] theorem State.setZN_pc (s : State) (v : Byte) : (s.setZN v).pc = s.pc := rfl
@[simp] theorem State.setZN_mem (s : State) (v : Byte) : (s.setZN v).mem = s.mem := rfl
@[simp] theorem State.setZN_run (s : State) (v : Byte) : (s.setZN v).run = s.run := rfl
@[simp] theorem State.setZN_config (s : State) (v : Byte) : (s.setZN v).config = s.config := rfl

@[simp] theorem State.setPc_a (s : State) (t : Word) : (s.setPc t).a = s.a := rfl
@[simp] theorem State.setPc_x (s : State) (t : Word) : (s.setPc t).x = s.x := rfl
@[simp] theorem State.setPc_y (s : State) (t : Word) : (s.setPc t).y = s.y := rfl
@[simp] theorem State.setPc_p (s : State) (t : Word) : (s.setPc t).p = s.p := rfl
@[simp] theorem State.setPc_pc (s : State) (t : Word) : (s.setPc t).pc = t := rfl
@[simp] theorem State.setPc_mem (s : State) (t : Word) : (s.setPc t).mem = s.mem := rfl
@[simp] theorem State.setPc_run (s : State) (t : Word) : (s.setPc t).run = s.run := rfl
@[simp] theorem State.setPc_config (s : State) (t : Word) : (s.setPc t).config = s.config := rfl

@[simp] theorem State.advance_a (s : State) (n : Nat) : (s.advance n).a = s.a := rfl
@[simp] theorem State.advance_x (s : State) (n : Nat) : (s.advance n).x = s.x := rfl
@[simp] theorem State.advance_y (s : State) (n : Nat) : (s.advance n).y = s.y := rfl
@[simp] theorem State.advance_p (s : State) (n : Nat) : (s.advance n).p = s.p := rfl
@[simp] theorem State.advance_pc (s : State) (n : Nat) : (s.advance n).pc = s.pc + BitVec.ofNat 16 n := rfl
@[simp] theorem State.advance_mem (s : State) (n : Nat) : (s.advance n).mem = s.mem := rfl
@[simp] theorem State.advance_run (s : State) (n : Nat) : (s.advance n).run = s.run := rfl
@[simp] theorem State.advance_config (s : State) (n : Nat) : (s.advance n).config = s.config := rfl

@[simp] theorem State.haltSuccess_a (s : State) : (s.haltSuccess).a = s.a := rfl
@[simp] theorem State.haltSuccess_x (s : State) : (s.haltSuccess).x = s.x := rfl
@[simp] theorem State.haltSuccess_y (s : State) : (s.haltSuccess).y = s.y := rfl
@[simp] theorem State.haltSuccess_p (s : State) : (s.haltSuccess).p = s.p := rfl
@[simp] theorem State.haltSuccess_pc (s : State) : (s.haltSuccess).pc = s.pc := rfl
@[simp] theorem State.haltSuccess_mem (s : State) : (s.haltSuccess).mem = s.mem := rfl
@[simp] theorem State.haltSuccess_run (s : State) : (s.haltSuccess).run = .halted .success := rfl
@[simp] theorem State.haltSuccess_config (s : State) : (s.haltSuccess).config = s.config := rfl

@[simp] theorem State.raise_a (s : State) (k : FatalKind) : (s.raise k).a = s.a := rfl
@[simp] theorem State.raise_x (s : State) (k : FatalKind) : (s.raise k).x = s.x := rfl
@[simp] theorem State.raise_y (s : State) (k : FatalKind) : (s.raise k).y = s.y := rfl
@[simp] theorem State.raise_p (s : State) (k : FatalKind) : (s.raise k).p = s.p := rfl
@[simp] theorem State.raise_pc (s : State) (k : FatalKind) : (s.raise k).pc = s.pc := rfl
@[simp] theorem State.raise_mem (s : State) (k : FatalKind) : (s.raise k).mem = s.mem := rfl
@[simp] theorem State.raise_run (s : State) (k : FatalKind) : (s.raise k).run = .halted (.fatal k) := rfl
@[simp] theorem State.raise_config (s : State) (k : FatalKind) : (s.raise k).config = s.config := rfl

@[simp] theorem State.afterOpcode_a (s : State) : (s.afterOpcode).a = s.a := rfl
@[simp] theorem State.afterOpcode_x (s : State) : (s.afterOpcode).x = s.x := rfl
@[simp] theorem State.afterOpcode_y (s : State) : (s.afterOpcode).y = s.y := rfl
@[simp] theorem State.afterOpcode_p (s : State) : (s.afterOpcode).p = s.p := rfl
@[simp] theorem State.afterOpcode_pc (s : State) : (s.afterOpcode).pc = s.pc + 1 := rfl
@[simp] theorem State.afterOpcode_mem (s : State) : (s.afterOpcode).mem = s.mem := rfl
@[simp] theorem State.afterOpcode_run (s : State) : (s.afterOpcode).run = s.run := rfl
@[simp] theorem State.afterOpcode_config (s : State) : (s.afterOpcode).config = s.config := rfl

@[simp] theorem State.illegalOpcode_a (s : State) : (s.illegalOpcode).a = s.a := rfl
@[simp] theorem State.illegalOpcode_x (s : State) : (s.illegalOpcode).x = s.x := rfl
@[simp] theorem State.illegalOpcode_y (s : State) : (s.illegalOpcode).y = s.y := rfl
@[simp] theorem State.illegalOpcode_p (s : State) : (s.illegalOpcode).p = s.p := rfl
@[simp] theorem State.illegalOpcode_pc (s : State) : (s.illegalOpcode).pc = s.pc + 1 := rfl
@[simp] theorem State.illegalOpcode_mem (s : State) : (s.illegalOpcode).mem = s.mem := rfl
@[simp] theorem State.illegalOpcode_run (s : State) : (s.illegalOpcode).run = .halted (.fatal .illegalInstruction) := rfl
@[simp] theorem State.illegalOpcode_config (s : State) : (s.illegalOpcode).config = s.config := rfl

@[simp] theorem State.hostReset_a (s : State) : (s.hostReset).a = 0 := rfl
@[simp] theorem State.hostReset_x (s : State) : (s.hostReset).x = 0 := rfl
@[simp] theorem State.hostReset_y (s : State) : (s.hostReset).y = 0 := rfl
@[simp] theorem State.hostReset_p (s : State) : (s.hostReset).p = Status.clear := rfl
@[simp] theorem State.hostReset_pc (s : State) : (s.hostReset).pc = s.read16 0xFFFC := rfl
@[simp] theorem State.hostReset_mem (s : State) : (s.hostReset).mem = s.mem := rfl
@[simp] theorem State.hostReset_run (s : State) : (s.hostReset).run = .running := rfl
@[simp] theorem State.hostReset_config (s : State) : (s.hostReset).config = s.config := rfl

@[simp] theorem State.write16_a (s : State) (a w : Word) : (s.write16 a w).a = s.a := rfl
@[simp] theorem State.write16_x (s : State) (a w : Word) : (s.write16 a w).x = s.x := rfl
@[simp] theorem State.write16_y (s : State) (a w : Word) : (s.write16 a w).y = s.y := rfl
@[simp] theorem State.write16_p (s : State) (a w : Word) : (s.write16 a w).p = s.p := rfl
@[simp] theorem State.write16_pc (s : State) (a w : Word) : (s.write16 a w).pc = s.pc := rfl
@[simp] theorem State.write16_mem (s : State) (a w : Word) : (s.write16 a w).mem = Memory.write16 s.mem a w := rfl
@[simp] theorem State.write16_run (s : State) (a w : Word) : (s.write16 a w).run = s.run := rfl
@[simp] theorem State.write16_config (s : State) (a w : Word) : (s.write16 a w).config = s.config := rfl

@[simp] theorem State.setReg_a_a (s : State) (v : Byte) : (s.setReg .a v).a = v := rfl
@[simp] theorem State.setReg_a_x (s : State) (v : Byte) : (s.setReg .a v).x = s.x := rfl
@[simp] theorem State.setReg_a_y (s : State) (v : Byte) : (s.setReg .a v).y = s.y := rfl
@[simp] theorem State.setReg_a_p (s : State) (v : Byte) : (s.setReg .a v).p = s.p := rfl
@[simp] theorem State.setReg_a_pc (s : State) (v : Byte) : (s.setReg .a v).pc = s.pc := rfl
@[simp] theorem State.setReg_a_mem (s : State) (v : Byte) : (s.setReg .a v).mem = s.mem := rfl
@[simp] theorem State.setReg_a_run (s : State) (v : Byte) : (s.setReg .a v).run = s.run := rfl
@[simp] theorem State.setReg_a_config (s : State) (v : Byte) : (s.setReg .a v).config = s.config := rfl
@[simp] theorem State.setReg_x_a (s : State) (v : Byte) : (s.setReg .x v).a = s.a := rfl
@[simp] theorem State.setReg_x_x (s : State) (v : Byte) : (s.setReg .x v).x = v := rfl
@[simp] theorem State.setReg_x_y (s : State) (v : Byte) : (s.setReg .x v).y = s.y := rfl
@[simp] theorem State.setReg_x_p (s : State) (v : Byte) : (s.setReg .x v).p = s.p := rfl
@[simp] theorem State.setReg_x_pc (s : State) (v : Byte) : (s.setReg .x v).pc = s.pc := rfl
@[simp] theorem State.setReg_x_mem (s : State) (v : Byte) : (s.setReg .x v).mem = s.mem := rfl
@[simp] theorem State.setReg_x_run (s : State) (v : Byte) : (s.setReg .x v).run = s.run := rfl
@[simp] theorem State.setReg_x_config (s : State) (v : Byte) : (s.setReg .x v).config = s.config := rfl
@[simp] theorem State.setReg_y_a (s : State) (v : Byte) : (s.setReg .y v).a = s.a := rfl
@[simp] theorem State.setReg_y_x (s : State) (v : Byte) : (s.setReg .y v).x = s.x := rfl
@[simp] theorem State.setReg_y_y (s : State) (v : Byte) : (s.setReg .y v).y = v := rfl
@[simp] theorem State.setReg_y_p (s : State) (v : Byte) : (s.setReg .y v).p = s.p := rfl
@[simp] theorem State.setReg_y_pc (s : State) (v : Byte) : (s.setReg .y v).pc = s.pc := rfl
@[simp] theorem State.setReg_y_mem (s : State) (v : Byte) : (s.setReg .y v).mem = s.mem := rfl
@[simp] theorem State.setReg_y_run (s : State) (v : Byte) : (s.setReg .y v).run = s.run := rfl
@[simp] theorem State.setReg_y_config (s : State) (v : Byte) : (s.setReg .y v).config = s.config := rfl

@[simp] theorem State.setReg_p (s : State) (r : Register) (v : Byte) : (s.setReg r v).p = s.p := by cases r <;> rfl
@[simp] theorem State.setReg_pc (s : State) (r : Register) (v : Byte) : (s.setReg r v).pc = s.pc := by cases r <;> rfl
@[simp] theorem State.setReg_mem (s : State) (r : Register) (v : Byte) : (s.setReg r v).mem = s.mem := by cases r <;> rfl
@[simp] theorem State.setReg_run (s : State) (r : Register) (v : Byte) : (s.setReg r v).run = s.run := by cases r <;> rfl
@[simp] theorem State.setReg_config (s : State) (r : Register) (v : Byte) : (s.setReg r v).config = s.config := by cases r <;> rfl

/-! ### Reading a register or a byte after an update -/

theorem State.reg_setReg (s : State) (r r' : Register) (v : Byte) :
    (s.setReg r v).reg r' = if r' = r then v else s.reg r' := by
  cases r <;> cases r' <;> rfl

theorem State.readByte_of_mem {s t : State} (h : t.mem = s.mem) (a : Word) : t.readByte a = s.readByte a := by
  simp [State.readByte, h]

@[simp] theorem State.setStatus_reg (s : State) (q : Status) (r : Register) : (s.setStatus q).reg r = s.reg r := by cases r <;> rfl
@[simp] theorem State.setStatus_readByte (s : State) (q : Status) (c : Word) : (s.setStatus q).readByte c = s.readByte c := rfl
@[simp] theorem State.setFlag_reg (s : State) (f : Flag) (on : Bool) (r : Register) : (s.setFlag f on).reg r = s.reg r := by cases r <;> rfl
@[simp] theorem State.setFlag_readByte (s : State) (f : Flag) (on : Bool) (c : Word) : (s.setFlag f on).readByte c = s.readByte c := rfl
@[simp] theorem State.setCarry_reg (s : State) (on : Bool) (r : Register) : (s.setCarry on).reg r = s.reg r := by cases r <;> rfl
@[simp] theorem State.setCarry_readByte (s : State) (on : Bool) (c : Word) : (s.setCarry on).readByte c = s.readByte c := rfl
@[simp] theorem State.setZN_reg (s : State) (v : Byte) (r : Register) : (s.setZN v).reg r = s.reg r := by cases r <;> rfl
@[simp] theorem State.setZN_readByte (s : State) (v : Byte) (c : Word) : (s.setZN v).readByte c = s.readByte c := rfl
@[simp] theorem State.setPc_reg (s : State) (t : Word) (r : Register) : (s.setPc t).reg r = s.reg r := by cases r <;> rfl
@[simp] theorem State.setPc_readByte (s : State) (t : Word) (c : Word) : (s.setPc t).readByte c = s.readByte c := rfl
@[simp] theorem State.advance_reg (s : State) (n : Nat) (r : Register) : (s.advance n).reg r = s.reg r := by cases r <;> rfl
@[simp] theorem State.advance_readByte (s : State) (n : Nat) (c : Word) : (s.advance n).readByte c = s.readByte c := rfl
@[simp] theorem State.haltSuccess_reg (s : State) (r : Register) : (s.haltSuccess).reg r = s.reg r := by cases r <;> rfl
@[simp] theorem State.haltSuccess_readByte (s : State) (c : Word) : (s.haltSuccess).readByte c = s.readByte c := rfl
@[simp] theorem State.raise_reg (s : State) (k : FatalKind) (r : Register) : (s.raise k).reg r = s.reg r := by cases r <;> rfl
@[simp] theorem State.raise_readByte (s : State) (k : FatalKind) (c : Word) : (s.raise k).readByte c = s.readByte c := rfl
@[simp] theorem State.afterOpcode_reg (s : State) (r : Register) : (s.afterOpcode).reg r = s.reg r := by cases r <;> rfl
@[simp] theorem State.afterOpcode_readByte (s : State) (c : Word) : (s.afterOpcode).readByte c = s.readByte c := rfl
@[simp] theorem State.illegalOpcode_reg (s : State) (r : Register) : (s.illegalOpcode).reg r = s.reg r := by cases r <;> rfl
@[simp] theorem State.illegalOpcode_readByte (s : State) (c : Word) : (s.illegalOpcode).readByte c = s.readByte c := rfl
@[simp] theorem State.hostReset_readByte (s : State) (c : Word) : (s.hostReset).readByte c = s.readByte c := rfl
@[simp] theorem State.setReg_readByte (s : State) (r : Register) (v : Byte) (c : Word) : (s.setReg r v).readByte c = s.readByte c := by cases r <;> rfl
@[simp] theorem State.writeByte_reg (s : State) (a : Word) (b : Byte) (r : Register) : (s.writeByte a b).reg r = s.reg r := by cases r <;> rfl

end Sys2Proof.Machine
end

