-- ==== Sys2Proof/Laws/Operands.lean ====
section
/-! SUPPORT. What the resolver and the two handler forms can answer. -/

namespace Sys2Proof.Machine

/-- The resolver either answers an address, for a mode that has one, or raises InvalidAddressingMode (R60, R70). -/
theorem resolve_cases (o : Operand) (s : State) :
    (∃ ea, resolve o s = .ok ea) ∨
      (resolve o s = .error .invalidAddressingMode ∧
        (o.mode = .accumulator ∨ o.mode = .implied ∨ o.mode = .unresolved)) := by
  cases o <;> simp [resolve, Operand.mode]

/-- The resolver reads X, Y, `pc`, memory and the pointer-wrap parameter, and nothing else (R60). -/
theorem resolve_congr {s t : State} (o : Operand) (hx : t.x = s.x) (hy : t.y = s.y) (hpc : t.pc = s.pc)
    (hm : t.mem = s.mem) (hc : t.config = s.config) : resolve o t = resolve o s := by
  cases o <;>
    simp [resolve, State.indirectYPointer, State.zpRead16, State.read16, hx, hy, hpc, hm, hc]

theorem withAddress_ok {o : Operand} {s : State} {ea : Word} (h : resolve o s = .ok ea)
    (body : Word → HandlerResult) : withAddress o s body = body ea := by
  rw [withAddress, h]

theorem withAddress_error {o : Operand} {s : State} {k : FatalKind} (h : resolve o s = .error k)
    (body : Word → HandlerResult) : withAddress o s body = .illegal k s := by
  rw [withAddress, h]

theorem memoryForm_ok {o : Operand} {s : State} {ea : Word} (h : resolve o s = .ok ea)
    (body : Word → State → State) :
    memoryForm o body s = .continues ((body ea s).advance (o.bytes - 1)) := by
  rw [memoryForm, withAddress_ok h]

theorem memoryForm_error {o : Operand} {s : State} {k : FatalKind} (h : resolve o s = .error k)
    (body : Word → State → State) : memoryForm o body s = .illegal k s := by
  rw [memoryForm, withAddress_error h]

@[simp] theorem finish_continues (s : State) : (HandlerResult.continues s).finish = .next s := rfl

@[simp] theorem finish_endsProgram (s : State) : (HandlerResult.endsProgram s).finish = .next s.haltSuccess := rfl

@[simp] theorem finish_illegal (k : FatalKind) (s : State) :
    (HandlerResult.illegal k s).finish = .next (s.raise k) := rfl

/-- The state a handler result carries to the loop. -/
def HandlerResult.after : HandlerResult → State
  | .continues s => s
  | .endsProgram s => s.haltSuccess
  | .illegal k s => s.raise k

/-- A handler never faults and never refuses (R120, R128). -/
theorem finish_eq_next (r : HandlerResult) : r.finish = .next r.after := by cases r <;> rfl

end Sys2Proof.Machine
end

