-- ==== Sys2Proof/Laws/Exec.lean ====
section
/-! SUPPORT. exec as one handler per mnemonic, parameterised by the operand (44_execution_loop.md R123), and what
each shared handler form answers. -/

namespace Sys2Proof.Machine

/-- The handler of a mnemonic, as a function of the operand its descriptor gives it. -/
def handlerOf : Mnemonic → Operand → State → HandlerResult
  | .lda, o, s => load .a o s
  | .ldx, o, s => load .x o s
  | .ldy, o, s => load .y o s
  | .sta, o, s => store .a o s
  | .stx, o, s => store .x o s
  | .sty, o, s => store .y o s
  | .and, o, s => logical (· &&& ·) o s
  | .ora, o, s => logical (· ||| ·) o s
  | .eor, o, s => logical (· ^^^ ·) o s
  | .asl, o, s => shift .asl o s
  | .lsr, o, s => shift .lsr o s
  | .rol, o, s => shift .rol o s
  | .ror, o, s => shift .ror o s
  | .inc, o, s => countMemory increment o s
  | .dec, o, s => countMemory decrement o s
  | .cmp, o, s => compareWith .a o s
  | .cpx, o, s => compareWith .x o s
  | .cpy, o, s => compareWith .y o s
  | .bcc, o, s => branch (fun p => !p.test .c) o s
  | .bcs, o, s => branch (fun p => p.test .c) o s
  | .beq, o, s => branch (fun p => p.test .z) o s
  | .bne, o, s => branch (fun p => !p.test .z) o s
  | .bmi, o, s => branch (fun p => p.test .n) o s
  | .bpl, o, s => branch (fun p => !p.test .n) o s
  | .jmp, o, s => handleJmp o s
  | .tax, _, s => transfer .a .x s
  | .tay, _, s => transfer .a .y s
  | .txa, _, s => transfer .x .a s
  | .tya, _, s => transfer .y .a s
  | .inx, _, s => countRegister increment .x s
  | .iny, _, s => countRegister increment .y s
  | .dex, _, s => countRegister decrement .x s
  | .dey, _, s => countRegister decrement .y s
  | .brk, _, s => handleBrk s
  | .nop, _, s => handleNop s
  | .clc, _, s => writeFlag .c false s
  | .sec, _, s => writeFlag .c true s
  | .cli, _, s => writeFlag .i false s
  | .sei, _, s => writeFlag .i true s
  | .cld, _, s => writeFlag .d false s
  | .sed, _, s => writeFlag .d true s

/-- Every arm of exec is its mnemonic's handler on its own operand. -/
theorem exec_eq (i : Instr) (s : State) : exec i s = (handlerOf i.mnemonic i.operand s).finish := by
  cases i <;> rfl

/-- exec answers a next state, always (R120, R128). -/
theorem exec_eq_next (i : Instr) (s : State) : exec i s = .next (handlerOf i.mnemonic i.operand s).after := by
  rw [exec_eq, finish_eq_next]

/-- The mnemonics whose handlers call the resolver with whatever operand they are given. -/
def needsAddress : Mnemonic → Bool
  | .lda | .ldx | .ldy | .sta | .stx | .sty | .and | .ora | .eor | .inc | .dec | .cmp | .cpx | .cpy
  | .bcc | .bcs | .beq | .bne | .bmi | .bpl | .jmp => true
  | .asl | .lsr | .rol | .ror | .tax | .tay | .txa | .tya | .inx | .iny | .dex | .dey | .brk | .nop
  | .clc | .sec | .cli | .sei | .cld | .sed => false

/-- No instruction routes an addressless operand to the resolver (R70). -/
theorem resolve_of_needsAddress {i : Instr} (h : needsAddress i.mnemonic = true) (s : State) :
    ∃ ea, resolve i.operand s = .ok ea := by
  revert h
  cases i <;> simp [Instr.mnemonic, needsAddress, Instr.operand, resolve]

/-- A shift's operand is the accumulator or has an address (R88 to R91). -/
theorem resolve_of_shift {i : Instr}
    (h : i.mnemonic = .asl ∨ i.mnemonic = .lsr ∨ i.mnemonic = .rol ∨ i.mnemonic = .ror) (s : State) :
    i.operand = .accumulator ∨ (i.operand ≠ .accumulator ∧ ∃ ea, resolve i.operand s = .ok ea) := by
  revert h
  cases i <;> simp [Instr.mnemonic, Instr.operand, resolve]

/-! ### What the shared forms answer at an address -/

section
variable {o : Operand} {s : State} {ea : Word}

theorem load_ok (h : resolve o s = .ok ea) (r : Register) :
    load r o s =
      .continues (((s.setReg r (s.operandByte o ea)).setZN (s.operandByte o ea)).advance (o.bytes - 1)) :=
  memoryForm_ok h _

theorem store_ok (h : resolve o s = .ok ea) (r : Register) :
    store r o s = .continues ((s.writeByte ea (s.reg r)).advance (o.bytes - 1)) :=
  memoryForm_ok h _

theorem logical_ok (h : resolve o s = .ok ea) (f : Byte → Byte → Byte) :
    logical f o s =
      .continues (((s.setReg .a (f s.a (s.operandByte o ea))).setZN (f s.a (s.operandByte o ea))).advance
        (o.bytes - 1)) :=
  memoryForm_ok h _

theorem shiftMemory_ok (h : resolve o s = .ok ea) (op : ShiftOp) :
    shiftMemory op o s =
      .continues ((((s.writeByte ea (op.result s.p.c (s.operandByte o ea))).setCarry
        (op.carryOut (s.operandByte o ea))).setZN (op.result s.p.c (s.operandByte o ea))).advance (o.bytes - 1)) :=
  memoryForm_ok h _

theorem shift_accumulator (op : ShiftOp) : shift op .accumulator s = shiftAccumulator op s := rfl

theorem shift_memory (ho : o ≠ .accumulator) (op : ShiftOp) : shift op o s = shiftMemory op o s := by
  cases o <;> first | rfl | exact absurd rfl ho

theorem countMemory_ok (h : resolve o s = .ok ea) (f : Byte → Byte) :
    countMemory f o s =
      .continues (((s.writeByte ea (f (s.operandByte o ea))).setZN (f (s.operandByte o ea))).advance
        (o.bytes - 1)) :=
  memoryForm_ok h _

theorem compareWith_ok (h : resolve o s = .ok ea) (r : Register) :
    compareWith r o s =
      .continues (((s.setCarry ((s.operandByte o ea).ule (s.reg r))).setZN
        (s.reg r - s.operandByte o ea)).advance (o.bytes - 1)) :=
  memoryForm_ok h _

theorem branch_ok (h : resolve o s = .ok ea) (taken : Status → Bool) :
    branch taken o s =
      .continues (s.setPc (if taken s.p then s.pc + 1 + s.branchOffset (s.operandByte o ea) else s.pc + 1)) := by
  rw [branch, withAddress_ok h]
  split <;> rfl

theorem handleJmp_ok (h : resolve o s = .ok ea) : handleJmp o s = .continues (s.setPc ea) :=
  withAddress_ok h _

end

/-! ### Everything an instruction can do -/

/-- What exec can do, one constructor per shared form, with the mnemonics that take it and the address it uses. -/
inductive Effect (i : Instr) (s : State) : State → Prop where
  | load (r : Register) (ea : Word) (hm : (r, i.mnemonic) ∈ [(.a, .lda), (.x, .ldx), (.y, .ldy)])
      (h : resolve i.operand s = .ok ea) :
      Effect i s (((s.setReg r (s.operandByte i.operand ea)).setZN (s.operandByte i.operand ea)).advance
        (i.operand.bytes - 1))
  | store (r : Register) (ea : Word) (hm : (r, i.mnemonic) ∈ [(.a, .sta), (.x, .stx), (.y, .sty)])
      (h : resolve i.operand s = .ok ea) :
      Effect i s ((s.writeByte ea (s.reg r)).advance (i.operand.bytes - 1))
  | logical (f : Byte → Byte → Byte) (ea : Word)
      (hm : (i.mnemonic = .and ∧ f = (· &&& ·)) ∨ (i.mnemonic = .ora ∧ f = (· ||| ·)) ∨
        (i.mnemonic = .eor ∧ f = (· ^^^ ·)))
      (h : resolve i.operand s = .ok ea) :
      Effect i s (((s.setReg .a (f s.a (s.operandByte i.operand ea))).setZN
        (f s.a (s.operandByte i.operand ea))).advance (i.operand.bytes - 1))
  | shiftAccumulator (op : ShiftOp)
      (hm : (op, i.mnemonic) ∈ [(.asl, .asl), (.lsr, .lsr), (.rol, .rol), (.ror, .ror)])
      (ho : i.operand = .accumulator) :
      Effect i s (((s.setCarry (op.carryOut s.a)).setReg .a (op.result s.p.c s.a)).setZN (op.result s.p.c s.a))
  | shiftMemory (op : ShiftOp) (ea : Word)
      (hm : (op, i.mnemonic) ∈ [(.asl, .asl), (.lsr, .lsr), (.rol, .rol), (.ror, .ror)])
      (ho : i.operand.mode ≠ .accumulator) (h : resolve i.operand s = .ok ea) :
      Effect i s ((((s.writeByte ea (op.result s.p.c (s.operandByte i.operand ea))).setCarry
        (op.carryOut (s.operandByte i.operand ea))).setZN
          (op.result s.p.c (s.operandByte i.operand ea))).advance (i.operand.bytes - 1))
  | countRegister (f : Byte → Byte) (r : Register)
      (hm : (i.mnemonic = .inx ∧ r = .x ∧ f = increment) ∨ (i.mnemonic = .iny ∧ r = .y ∧ f = increment) ∨
        (i.mnemonic = .dex ∧ r = .x ∧ f = decrement) ∨ (i.mnemonic = .dey ∧ r = .y ∧ f = decrement)) :
      Effect i s ((s.setReg r (f (s.reg r))).setZN (f (s.reg r)))
  | countMemory (f : Byte → Byte) (ea : Word)
      (hm : (i.mnemonic = .inc ∧ f = increment) ∨ (i.mnemonic = .dec ∧ f = decrement))
      (h : resolve i.operand s = .ok ea) :
      Effect i s (((s.writeByte ea (f (s.operandByte i.operand ea))).setZN
        (f (s.operandByte i.operand ea))).advance (i.operand.bytes - 1))
  | compare (r : Register) (ea : Word) (hm : (r, i.mnemonic) ∈ [(.a, .cmp), (.x, .cpx), (.y, .cpy)])
      (h : resolve i.operand s = .ok ea) :
      Effect i s (((s.setCarry ((s.operandByte i.operand ea).ule (s.reg r))).setZN
        (s.reg r - s.operandByte i.operand ea)).advance (i.operand.bytes - 1))
  | branch (f : Flag) (on : Bool) (b : Byte)
      (hm : (f, on, i.mnemonic) ∈
        [(.c, false, .bcc), (.c, true, .bcs), (.z, true, .beq), (.z, false, .bne), (.n, true, .bmi), (.n, false, .bpl)])
      (ho : i.operand = .immediate b) :
      Effect i s (s.setPc (if s.p.test f = on then s.pc + 1 + s.branchOffset b else s.pc + 1))
  | jump (w : Word) (hi : i = .jmp w) : Effect i s (s.setPc w)
  | transfer (src dst : Register)
      (hm : (src, dst, i.mnemonic) ∈ [(.a, .x, .tax), (.a, .y, .tay), (.x, .a, .txa), (.y, .a, .tya)]) :
      Effect i s ((s.setReg dst (s.reg src)).setZN (s.reg src))
  | endProgram (hi : i = .brk) : Effect i s s.haltSuccess
  | noOperation (hi : i = .nop) : Effect i s s
  | writeFlag (f : Flag) (on : Bool)
      (hm : (f, on, i.mnemonic) ∈
        [(.c, false, .clc), (.c, true, .sec), (.i, false, .cli), (.i, true, .sei), (.d, false, .cld), (.d, true, .sed)]) :
      Effect i s (s.setFlag f on)

theorem shift_effect {i : Instr} (s : State) (op : ShiftOp)
    (hm : (op, i.mnemonic) ∈ [(.asl, .asl), (.lsr, .lsr), (.rol, .rol), (.ror, .ror)]) :
    Effect i s (shift op i.operand s).after := by
  have hs : i.mnemonic = .asl ∨ i.mnemonic = .lsr ∨ i.mnemonic = .rol ∨ i.mnemonic = .ror := by
    simp only [List.mem_cons, Prod.mk.injEq, List.not_mem_nil, or_false] at hm
    rcases hm with ⟨-, h⟩ | ⟨-, h⟩ | ⟨-, h⟩ | ⟨-, h⟩ <;> simp [h]
  rcases resolve_of_shift hs s with ho | ⟨ho, ea, he⟩
  · rw [ho]
    exact .shiftAccumulator op hm ho
  · rw [shift_memory ho, shiftMemory_ok he]
    refine .shiftMemory op ea hm (fun hmode => ho ?_) he
    revert hmode
    cases i.operand <;> simp [Operand.mode]

theorem branch_effect {i : Instr} (s : State) (f : Flag) (on : Bool)
    (hm : (f, on, i.mnemonic) ∈
      [(.c, false, .bcc), (.c, true, .bcs), (.z, true, .beq), (.z, false, .bne), (.n, true, .bmi), (.n, false, .bpl)])
    (ho : ∃ b, i.operand = .immediate b) :
    Effect i s (branch (fun p => p.test f == on) i.operand s).after := by
  obtain ⟨b, hb⟩ := ho
  rw [branch_ok (ea := s.pc) (by rw [hb]; rfl)]
  have := Effect.branch (i := i) (s := s) f on b hm hb
  rw [hb]
  simpa [HandlerResult.after, State.operandByte] using this

theorem eq_jmp_of_mnemonic {i : Instr} (h : i.mnemonic = .jmp) : ∃ w, i = .jmp w := by
  cases i <;> simp [Instr.mnemonic] at h ⊢

theorem eq_brk_of_mnemonic {i : Instr} (h : i.mnemonic = .brk) : i = .brk := by
  cases i <;> simp [Instr.mnemonic] at h ⊢

theorem eq_nop_of_mnemonic {i : Instr} (h : i.mnemonic = .nop) : i = .nop := by
  cases i <;> simp [Instr.mnemonic] at h ⊢

theorem immediate_of_branch {i : Instr}
    (h : i.mnemonic = .bcc ∨ i.mnemonic = .bcs ∨ i.mnemonic = .beq ∨ i.mnemonic = .bne ∨ i.mnemonic = .bmi ∨
      i.mnemonic = .bpl) : ∃ b, i.operand = .immediate b := by
  cases i <;> simp [Instr.mnemonic, Instr.operand] at h ⊢

/-- Everything exec can do: it answers a next state, and that state is one of the effects. -/
theorem exec_effect (i : Instr) (s : State) : ∃ t, exec i s = .next t ∧ Effect i s t := by
  refine ⟨_, exec_eq_next i s, ?_⟩
  have hclear : ∀ f, (fun p : Status => p.test f == false) = fun p => !p.test f := fun f => by
    funext p
    cases p.test f <;> rfl
  have hset : ∀ f, (fun p : Status => p.test f == true) = fun p => p.test f := fun f => by
    funext p
    cases p.test f <;> rfl
  have haddr := fun h => @resolve_of_needsAddress i h s
  cases hm : i.mnemonic <;> simp only [handlerOf]
  case asl | lsr | rol | ror => exact shift_effect s _ (by simp [hm])
  case bcs | beq | bmi => exact hset _ ▸ branch_effect s _ true (by simp [hm]) (immediate_of_branch (by simp [hm]))
  case bcc | bne | bpl =>
    exact hclear _ ▸ branch_effect s _ false (by simp [hm]) (immediate_of_branch (by simp [hm]))
  case tax | tay | txa | tya => exact .transfer _ _ (by simp [hm])
  case inx | iny | dex | dey => exact .countRegister _ _ (by simp [hm])
  case clc | sec | cli | sei | cld | sed => exact .writeFlag _ _ (by simp [hm])
  case brk => exact .endProgram (eq_brk_of_mnemonic hm)
  case nop => exact .noOperation (eq_nop_of_mnemonic hm)
  case jmp =>
    obtain ⟨w, rfl⟩ := eq_jmp_of_mnemonic hm
    exact .jump w rfl
  all_goals obtain ⟨ea, he⟩ := haddr (by rw [hm]; rfl)
  case lda | ldx | ldy => rw [load_ok he]; exact .load _ ea (by simp [hm]) he
  case sta | stx | sty => rw [store_ok he]; exact .store _ ea (by simp [hm]) he
  case and | ora | eor => rw [logical_ok he]; exact .logical _ ea (by simp [hm]) he
  case inc | dec => rw [countMemory_ok he]; exact .countMemory _ ea (by simp [hm]) he
  case cmp | cpx | cpy => rw [compareWith_ok he]; exact .compare _ ea (by simp [hm]) he

/-- The inversion of exec. -/
theorem effect_of_exec {i : Instr} {s t : State} (h : exec i s = .next t) : Effect i s t := by
  obtain ⟨t', ht', he⟩ := exec_effect i s
  rw [ht'] at h
  cases h
  exact he

/-- The converse: an instruction has one effect in a state, and exec answers it. -/
theorem exec_of_effect {i : Instr} {s t : State} (he : Effect i s t) : exec i s = .next t := by
  rw [exec_eq]
  cases he with
  | load r ea hm h =>
    simp only [List.mem_cons, Prod.mk.injEq, List.not_mem_nil, or_false] at hm
    rcases hm with ⟨rfl, hm⟩ | ⟨rfl, hm⟩ | ⟨rfl, hm⟩ <;> simp only [hm, handlerOf, load_ok h] <;> rfl
  | store r ea hm h =>
    simp only [List.mem_cons, Prod.mk.injEq, List.not_mem_nil, or_false] at hm
    rcases hm with ⟨rfl, hm⟩ | ⟨rfl, hm⟩ | ⟨rfl, hm⟩ <;> simp only [hm, handlerOf, store_ok h] <;> rfl
  | logical f ea hm h =>
    rcases hm with ⟨hm, rfl⟩ | ⟨hm, rfl⟩ | ⟨hm, rfl⟩ <;> simp only [hm, handlerOf, logical_ok h] <;> rfl
  | shiftAccumulator op hm ho =>
    simp only [List.mem_cons, Prod.mk.injEq, List.not_mem_nil, or_false] at hm
    rcases hm with ⟨rfl, hm⟩ | ⟨rfl, hm⟩ | ⟨rfl, hm⟩ | ⟨rfl, hm⟩ <;>
      simp only [hm, ho, handlerOf, shift_accumulator] <;> rfl
  | shiftMemory op ea hm ho h =>
    have ho' : i.operand ≠ .accumulator := fun e => ho (by rw [e]; rfl)
    simp only [List.mem_cons, Prod.mk.injEq, List.not_mem_nil, or_false] at hm
    rcases hm with ⟨rfl, hm⟩ | ⟨rfl, hm⟩ | ⟨rfl, hm⟩ | ⟨rfl, hm⟩ <;>
      simp only [hm, handlerOf, shift_memory ho', shiftMemory_ok h] <;> rfl
  | countRegister f r hm =>
    rcases hm with ⟨hm, rfl, rfl⟩ | ⟨hm, rfl, rfl⟩ | ⟨hm, rfl, rfl⟩ | ⟨hm, rfl, rfl⟩ <;>
      simp only [hm, handlerOf] <;> rfl
  | countMemory f ea hm h =>
    rcases hm with ⟨hm, rfl⟩ | ⟨hm, rfl⟩ <;> simp only [hm, handlerOf, countMemory_ok h] <;> rfl
  | compare r ea hm h =>
    simp only [List.mem_cons, Prod.mk.injEq, List.not_mem_nil, or_false] at hm
    rcases hm with ⟨rfl, hm⟩ | ⟨rfl, hm⟩ | ⟨rfl, hm⟩ <;> simp only [hm, handlerOf, compareWith_ok h] <;> rfl
  | branch f on b hm ho =>
    have h : resolve (.immediate b) s = .ok s.pc := rfl
    simp only [List.mem_cons, Prod.mk.injEq, List.not_mem_nil, or_false] at hm
    rcases hm with ⟨rfl, rfl, hm⟩ | ⟨rfl, rfl, hm⟩ | ⟨rfl, rfl, hm⟩ | ⟨rfl, rfl, hm⟩ | ⟨rfl, rfl, hm⟩ |
        ⟨rfl, rfl, hm⟩ <;>
      simp [hm, ho, handlerOf, branch_ok h, State.operandByte]
  | jump w hi => rw [hi]; rfl
  | transfer src dst hm =>
    simp only [List.mem_cons, Prod.mk.injEq, List.not_mem_nil, or_false] at hm
    rcases hm with ⟨rfl, rfl, hm⟩ | ⟨rfl, rfl, hm⟩ | ⟨rfl, rfl, hm⟩ | ⟨rfl, rfl, hm⟩ <;>
      simp only [hm, handlerOf] <;> rfl
  | endProgram hi => rw [hi]; rfl
  | noOperation hi => rw [hi]; rfl
  | writeFlag f on hm =>
    simp only [List.mem_cons, Prod.mk.injEq, List.not_mem_nil, or_false] at hm
    rcases hm with ⟨rfl, rfl, hm⟩ | ⟨rfl, rfl, hm⟩ | ⟨rfl, rfl, hm⟩ | ⟨rfl, rfl, hm⟩ | ⟨rfl, rfl, hm⟩ |
        ⟨rfl, rfl, hm⟩ <;>
      simp only [hm, handlerOf] <;> rfl

/-- exec never faults and never refuses, so its effect is what it answers. -/
theorem exec_ne_stop (i : Instr) (s : State) :
    (∀ f, exec i s ≠ .fault f) ∧ ∀ r, exec i s ≠ .refused r := by
  rw [exec_eq_next]
  simp

end Sys2Proof.Machine
end

