-- ==== Sys2Proof/Laws/Step.lean ====
section
/-! SUPPORT. What a step can do. -/

namespace Sys2Proof.Machine

/-- A fetch from memory always has the operand bytes: it decodes, or the opcode byte is absent. -/
theorem fetchInstr_cases (s : State) :
    (∃ i, s.fetchInstr = .ok i) ∨
      (s.fetchInstr = .error (.absent (s.readByte s.pc)) ∧
        lookup s.config.opcodeProfile (s.readByte s.pc) = none) := by
  unfold State.fetchInstr State.fetchBytes
  rcases decode_three s.config.opcodeProfile (s.readByte s.pc) (s.readByte (s.pc + 1)) (s.readByte (s.pc + 2)) with
    ⟨i, rest, h⟩ | ⟨h, hn⟩
  · exact .inl ⟨i, by rw [h]⟩
  · exact .inr ⟨by rw [h], hn⟩

/-- From a halted state there is no step (R121). -/
theorem step_halted {s : State} {r : HaltReason} (hr : s.run = .halted r) : step s = .fault r.noStep := by
  unfold step
  rw [hr]

/-- A fetched instruction is run with `pc` one past its opcode byte (R119). -/
theorem step_fetched {s : State} {i : Instr} (hr : s.run = .running) (hi : s.fetchInstr = .ok i) :
    step s = exec i s.afterOpcode := by
  unfold step
  rw [hr, hi]

/-- An absent opcode halts (R126). -/
theorem step_absent {s : State} {e : DecodeError} (hr : s.run = .running) (he : s.fetchInstr = .error e) :
    step s = .next s.illegalOpcode := by
  unfold step
  rw [hr, he]

/-- From Running a step always answers a next state (R128). -/
theorem step_running {s : State} (hr : s.run = .running) : ∃ t, step s = .next t := by
  rcases fetchInstr_cases s with ⟨i, hi⟩ | ⟨he, -⟩
  · exact ⟨_, (step_fetched hr hi).trans (exec_eq_next i _)⟩
  · exact ⟨_, step_absent hr he⟩

/-- A step that answers a next state ran from Running, and either ran the fetched instruction's handler or halted on
an absent opcode. -/
theorem step_cases {s t : State} (h : step s = .next t) :
    s.run = .running ∧
      ((∃ i, s.fetchInstr = .ok i ∧ t = (handlerOf i.mnemonic i.operand s.afterOpcode).after) ∨
        (s.fetchInstr = .error (.absent (s.readByte s.pc)) ∧
          lookup s.config.opcodeProfile (s.readByte s.pc) = none ∧ t = s.illegalOpcode)) := by
  cases hr : s.run with
  | halted r =>
    rw [step_halted hr] at h
    cases h
  | running =>
    refine ⟨rfl, ?_⟩
    rcases fetchInstr_cases s with ⟨i, hi⟩ | ⟨he, hn⟩
    · rw [step_fetched hr hi, exec_eq_next] at h
      cases h
      exact .inl ⟨i, hi, rfl⟩
    · rw [step_absent hr he] at h
      cases h
      exact .inr ⟨he, hn, rfl⟩

end Sys2Proof.Machine
end

