-- ==== Sys2Proof/Tests/Slice0.lean ====
section
/-! SUPPORT. Tests. Expected values are those of spec/95_test_vectors.md, by the vector's own name (V-…), or of the
example in the rule named. A witness_<Name> shows that something meets the hypotheses of Obligations.<Name>. -/

namespace Sys2Proof.Tests

open Sys2Proof Sys2Proof.Machine Sys2Proof.Claims

/-! ### Helpers -/

/-- A Running core at 0x8000 in the `extended` profile, everything else as State.reset has it. -/
def ext : State := { State.reset with pc := 0x8000, config := { configAtReset with opcodeProfile := .extended } }

/-- The same in the `named` profile, with the spec's defaults of every parameter. -/
def nam : State := { State.reset with pc := 0x8000 }

/-- The state with some bytes from `pc` on. -/
def withBytes (s : State) (bytes : List Byte) : State := { s with mem := Memory.writeBytes s.mem s.pc bytes }

/-- One step on some bytes placed at `pc`, or none where the step does not answer a next state. -/
def after (s : State) (bytes : List Byte) : Option State :=
  match step (withBytes s bytes) with
  | .next t => some t
  | .fault _ => none
  | .refused _ => none

/-- The status with some flags set and the others clear. -/
def flags (l : List Flag) : Status := l.foldl (fun p f => p.set f true) Status.clear

theorem standsAt_of_all {i : Instr} {s : State}
    (h : ((List.range (encode i).length).all fun k =>
      (encode i)[k]? == some (s.readByte (s.pc + BitVec.ofNat 16 k))) = true) : standsAt i s := by
  intro k b hk
  have hlt : k < (encode i).length := (List.getElem?_eq_some_iff.mp hk).1
  have := List.all_eq_true.mp h k (List.mem_range.mpr hlt)
  rw [hk] at this
  exact (Option.some.inj (eq_of_beq this)).symm

theorem not_populated_of_lookup {s : State} {c : Byte} (h : lookup s.config.opcodeProfile c = none) :
    ¬ populated s c := by
  intro hp
  have := (lookup_isSome_iff _ _).mpr hp
  rw [h] at this
  cases this

/-! ### Well-formedness: an ill-formed term for each check, which the check refuses -/

theorem test_wellFormed_profile :
    (Instr.ldxImmediate 0x05).wellFormed .named = false ∧ (Instr.ldxImmediate 0x05).wellFormed .extended = true ∧
      (Instr.ldaImmediate 0x05).wellFormed .named = true := by decide

theorem test_wellFormed_descriptor_length :
    (Descriptor.mk .lda .absolute 2 4).wellFormed = false ∧ (Descriptor.mk .lda .absolute 3 4).wellFormed = true := by
  decide

theorem test_wellFormed_descriptor_unresolved : (Descriptor.mk .lda .unresolved 2 2).wellFormed = false := by decide

/-! ### Decoding: every constructor, by a word written out from R49, R53 and R54 -/

/-- LDA (R53). -/
theorem test_decode_lda :
    decode .named [0xA9, 0xF1] = .ok (.ldaImmediate 0xF1, []) ∧
    decode .named [0xA5, 0xF1] = .ok (.ldaZeroPage 0xF1, []) ∧
    decode .named [0xB5, 0xF1] = .ok (.ldaZeroPageX 0xF1, []) ∧
    decode .named [0xAD, 0x34, 0x12] = .ok (.ldaAbsolute 0x1234, []) ∧
    decode .named [0xBD, 0x34, 0x12] = .ok (.ldaAbsoluteX 0x1234, []) ∧
    decode .named [0xB9, 0x34, 0x12] = .ok (.ldaAbsoluteY 0x1234, []) ∧
    decode .named [0xA1, 0xF1] = .ok (.ldaIndirectX 0xF1, []) ∧
    decode .named [0xB1, 0xF1] = .ok (.ldaIndirectY 0xF1, []) := by
  and_intros <;> rfl

/-- AND, ORA (R53). -/
theorem test_decode_and_ora :
    decode .named [0x29, 0xF1] = .ok (.andImmediate 0xF1, []) ∧
    decode .named [0x25, 0xF1] = .ok (.andZeroPage 0xF1, []) ∧
    decode .named [0x35, 0xF1] = .ok (.andZeroPageX 0xF1, []) ∧
    decode .named [0x2D, 0x34, 0x12] = .ok (.andAbsolute 0x1234, []) ∧
    decode .named [0x3D, 0x34, 0x12] = .ok (.andAbsoluteX 0x1234, []) ∧
    decode .named [0x39, 0x34, 0x12] = .ok (.andAbsoluteY 0x1234, []) ∧
    decode .named [0x21, 0xF1] = .ok (.andIndirectX 0xF1, []) ∧
    decode .named [0x31, 0xF1] = .ok (.andIndirectY 0xF1, []) ∧
    decode .named [0x09, 0xF1] = .ok (.oraImmediate 0xF1, []) ∧
    decode .named [0x05, 0xF1] = .ok (.oraZeroPage 0xF1, []) ∧
    decode .named [0x15, 0xF1] = .ok (.oraZeroPageX 0xF1, []) ∧
    decode .named [0x0D, 0x34, 0x12] = .ok (.oraAbsolute 0x1234, []) ∧
    decode .named [0x1D, 0x34, 0x12] = .ok (.oraAbsoluteX 0x1234, []) ∧
    decode .named [0x19, 0x34, 0x12] = .ok (.oraAbsoluteY 0x1234, []) ∧
    decode .named [0x01, 0xF1] = .ok (.oraIndirectX 0xF1, []) ∧
    decode .named [0x11, 0xF1] = .ok (.oraIndirectY 0xF1, []) := by
  and_intros <;> rfl

/-- ASL, TAX, INX, BCC, BRK (R53). -/
theorem test_decode_named_rest :
    decode .named [0x0A] = .ok (.aslAccumulator, []) ∧
    decode .named [0x06, 0xF1] = .ok (.aslZeroPage 0xF1, []) ∧
    decode .named [0x16, 0xF1] = .ok (.aslZeroPageX 0xF1, []) ∧
    decode .named [0x0E, 0x34, 0x12] = .ok (.aslAbsolute 0x1234, []) ∧
    decode .named [0x1E, 0x34, 0x12] = .ok (.aslAbsoluteX 0x1234, []) ∧
    decode .named [0xAA] = .ok (.tax, []) ∧
    decode .named [0xE8] = .ok (.inx, []) ∧
    decode .named [0x90, 0xF1] = .ok (.bcc 0xF1, []) ∧
    decode .named [0x00] = .ok (.brk, []) := by
  and_intros <;> rfl

/-- LDX, LDY (R54). -/
theorem test_decode_ldx_ldy :
    decode .extended [0xA2, 0xF1] = .ok (.ldxImmediate 0xF1, []) ∧
    decode .extended [0xA6, 0xF1] = .ok (.ldxZeroPage 0xF1, []) ∧
    decode .extended [0xB6, 0xF1] = .ok (.ldxZeroPageY 0xF1, []) ∧
    decode .extended [0xAE, 0x34, 0x12] = .ok (.ldxAbsolute 0x1234, []) ∧
    decode .extended [0xBE, 0x34, 0x12] = .ok (.ldxAbsoluteY 0x1234, []) ∧
    decode .extended [0xA0, 0xF1] = .ok (.ldyImmediate 0xF1, []) ∧
    decode .extended [0xA4, 0xF1] = .ok (.ldyZeroPage 0xF1, []) ∧
    decode .extended [0xB4, 0xF1] = .ok (.ldyZeroPageX 0xF1, []) ∧
    decode .extended [0xAC, 0x34, 0x12] = .ok (.ldyAbsolute 0x1234, []) ∧
    decode .extended [0xBC, 0x34, 0x12] = .ok (.ldyAbsoluteX 0x1234, []) := by
  and_intros <;> rfl

/-- STA, STX, STY (R54). -/
theorem test_decode_stores :
    decode .extended [0x85, 0xF1] = .ok (.staZeroPage 0xF1, []) ∧
    decode .extended [0x95, 0xF1] = .ok (.staZeroPageX 0xF1, []) ∧
    decode .extended [0x8D, 0x34, 0x12] = .ok (.staAbsolute 0x1234, []) ∧
    decode .extended [0x9D, 0x34, 0x12] = .ok (.staAbsoluteX 0x1234, []) ∧
    decode .extended [0x99, 0x34, 0x12] = .ok (.staAbsoluteY 0x1234, []) ∧
    decode .extended [0x81, 0xF1] = .ok (.staIndirectX 0xF1, []) ∧
    decode .extended [0x91, 0xF1] = .ok (.staIndirectY 0xF1, []) ∧
    decode .extended [0x86, 0xF1] = .ok (.stxZeroPage 0xF1, []) ∧
    decode .extended [0x96, 0xF1] = .ok (.stxZeroPageY 0xF1, []) ∧
    decode .extended [0x8E, 0x34, 0x12] = .ok (.stxAbsolute 0x1234, []) ∧
    decode .extended [0x84, 0xF1] = .ok (.styZeroPage 0xF1, []) ∧
    decode .extended [0x94, 0xF1] = .ok (.styZeroPageX 0xF1, []) ∧
    decode .extended [0x8C, 0x34, 0x12] = .ok (.styAbsolute 0x1234, []) := by
  and_intros <;> rfl

/-- TAY, TXA, TYA, EOR (R54). -/
theorem test_decode_transfers_eor :
    decode .extended [0xA8] = .ok (.tay, []) ∧
    decode .extended [0x8A] = .ok (.txa, []) ∧
    decode .extended [0x98] = .ok (.tya, []) ∧
    decode .extended [0x49, 0xF1] = .ok (.eorImmediate 0xF1, []) ∧
    decode .extended [0x45, 0xF1] = .ok (.eorZeroPage 0xF1, []) ∧
    decode .extended [0x55, 0xF1] = .ok (.eorZeroPageX 0xF1, []) ∧
    decode .extended [0x4D, 0x34, 0x12] = .ok (.eorAbsolute 0x1234, []) ∧
    decode .extended [0x5D, 0x34, 0x12] = .ok (.eorAbsoluteX 0x1234, []) ∧
    decode .extended [0x59, 0x34, 0x12] = .ok (.eorAbsoluteY 0x1234, []) ∧
    decode .extended [0x41, 0xF1] = .ok (.eorIndirectX 0xF1, []) ∧
    decode .extended [0x51, 0xF1] = .ok (.eorIndirectY 0xF1, []) := by
  and_intros <;> rfl

/-- LSR, ROL, ROR (R54). -/
theorem test_decode_shifts :
    decode .extended [0x4A] = .ok (.lsrAccumulator, []) ∧
    decode .extended [0x46, 0xF1] = .ok (.lsrZeroPage 0xF1, []) ∧
    decode .extended [0x56, 0xF1] = .ok (.lsrZeroPageX 0xF1, []) ∧
    decode .extended [0x4E, 0x34, 0x12] = .ok (.lsrAbsolute 0x1234, []) ∧
    decode .extended [0x5E, 0x34, 0x12] = .ok (.lsrAbsoluteX 0x1234, []) ∧
    decode .extended [0x2A] = .ok (.rolAccumulator, []) ∧
    decode .extended [0x26, 0xF1] = .ok (.rolZeroPage 0xF1, []) ∧
    decode .extended [0x36, 0xF1] = .ok (.rolZeroPageX 0xF1, []) ∧
    decode .extended [0x2E, 0x34, 0x12] = .ok (.rolAbsolute 0x1234, []) ∧
    decode .extended [0x3E, 0x34, 0x12] = .ok (.rolAbsoluteX 0x1234, []) ∧
    decode .extended [0x6A] = .ok (.rorAccumulator, []) ∧
    decode .extended [0x66, 0xF1] = .ok (.rorZeroPage 0xF1, []) ∧
    decode .extended [0x76, 0xF1] = .ok (.rorZeroPageX 0xF1, []) ∧
    decode .extended [0x6E, 0x34, 0x12] = .ok (.rorAbsolute 0x1234, []) ∧
    decode .extended [0x7E, 0x34, 0x12] = .ok (.rorAbsoluteX 0x1234, []) := by
  and_intros <;> rfl

/-- INY, DEX, DEY, INC, DEC (R54). -/
theorem test_decode_counts :
    decode .extended [0xC8] = .ok (.iny, []) ∧
    decode .extended [0xCA] = .ok (.dex, []) ∧
    decode .extended [0x88] = .ok (.dey, []) ∧
    decode .extended [0xE6, 0xF1] = .ok (.incZeroPage 0xF1, []) ∧
    decode .extended [0xF6, 0xF1] = .ok (.incZeroPageX 0xF1, []) ∧
    decode .extended [0xEE, 0x34, 0x12] = .ok (.incAbsolute 0x1234, []) ∧
    decode .extended [0xFE, 0x34, 0x12] = .ok (.incAbsoluteX 0x1234, []) ∧
    decode .extended [0xC6, 0xF1] = .ok (.decZeroPage 0xF1, []) ∧
    decode .extended [0xD6, 0xF1] = .ok (.decZeroPageX 0xF1, []) ∧
    decode .extended [0xCE, 0x34, 0x12] = .ok (.decAbsolute 0x1234, []) ∧
    decode .extended [0xDE, 0x34, 0x12] = .ok (.decAbsoluteX 0x1234, []) := by
  and_intros <;> rfl

/-- CMP, CPX, CPY (R54). -/
theorem test_decode_compares :
    decode .extended [0xC9, 0xF1] = .ok (.cmpImmediate 0xF1, []) ∧
    decode .extended [0xC5, 0xF1] = .ok (.cmpZeroPage 0xF1, []) ∧
    decode .extended [0xD5, 0xF1] = .ok (.cmpZeroPageX 0xF1, []) ∧
    decode .extended [0xCD, 0x34, 0x12] = .ok (.cmpAbsolute 0x1234, []) ∧
    decode .extended [0xDD, 0x34, 0x12] = .ok (.cmpAbsoluteX 0x1234, []) ∧
    decode .extended [0xD9, 0x34, 0x12] = .ok (.cmpAbsoluteY 0x1234, []) ∧
    decode .extended [0xC1, 0xF1] = .ok (.cmpIndirectX 0xF1, []) ∧
    decode .extended [0xD1, 0xF1] = .ok (.cmpIndirectY 0xF1, []) ∧
    decode .extended [0xE0, 0xF1] = .ok (.cpxImmediate 0xF1, []) ∧
    decode .extended [0xE4, 0xF1] = .ok (.cpxZeroPage 0xF1, []) ∧
    decode .extended [0xEC, 0x34, 0x12] = .ok (.cpxAbsolute 0x1234, []) ∧
    decode .extended [0xC0, 0xF1] = .ok (.cpyImmediate 0xF1, []) ∧
    decode .extended [0xC4, 0xF1] = .ok (.cpyZeroPage 0xF1, []) ∧
    decode .extended [0xCC, 0x34, 0x12] = .ok (.cpyAbsolute 0x1234, []) := by
  and_intros <;> rfl

/-- The branches, JMP, NOP and the flag instructions (R54). -/
theorem test_decode_control :
    decode .extended [0xB0, 0xF1] = .ok (.bcs 0xF1, []) ∧
    decode .extended [0xF0, 0xF1] = .ok (.beq 0xF1, []) ∧
    decode .extended [0xD0, 0xF1] = .ok (.bne 0xF1, []) ∧
    decode .extended [0x30, 0xF1] = .ok (.bmi 0xF1, []) ∧
    decode .extended [0x10, 0xF1] = .ok (.bpl 0xF1, []) ∧
    decode .extended [0x4C, 0x34, 0x12] = .ok (.jmp 0x1234, []) ∧
    decode .extended [0xEA] = .ok (.nop, []) ∧
    decode .extended [0x18] = .ok (.clc, []) ∧
    decode .extended [0x38] = .ok (.sec, []) ∧
    decode .extended [0x58] = .ok (.cli, []) ∧
    decode .extended [0x78] = .ok (.sei, []) ∧
    decode .extended [0xD8] = .ok (.cld, []) ∧
    decode .extended [0xF8] = .ok (.sed, []) := by
  and_intros <;> rfl
/-- R55: the bytes that V-ILL-4 to V-ILL-6 name are absent in both profiles, and 0xA2 in `named`. -/
theorem test_decode_rejects :
    decode .extended [0x69, 0x01] = .error (.absent 0x69) ∧ decode .extended [0xFF] = .error (.absent 0xFF) ∧
    decode .extended [0x6C, 0x00, 0x90] = .error (.absent 0x6C) ∧
    decode .extended [0x20, 0x00, 0x90] = .error (.absent 0x20) ∧
    decode .extended [0x24, 0x10] = .error (.absent 0x24) ∧ decode .extended [0xB8] = .error (.absent 0xB8) ∧
    decode .extended [0x50, 0x00] = .error (.absent 0x50) ∧ decode .named [0xA2, 0x05] = .error (.absent 0xA2) ∧
    decode .extended [0xAD, 0x00] = .error (.truncated 0xAD) ∧ decode .extended [] = .error .noBytes := by
  and_intros <;> rfl

theorem test_decodeTableWord :
    decodeTableWord 8 0xAD = some (.ldaAbsolute 0x0000) ∧ decodeTableWord 24 0x1234AD = some (.ldaAbsolute 0x1234) ∧
      decodeTableWord 8 0xFF = none := by
  and_intros <;> rfl

/-! ### The resolver -/

/-- V-RES-4 and V-RES-6: the zero-page forms wrap in page 0. -/
theorem test_resolve_zeroPage_wraps :
    resolve (.zeroPageX 0xFF) { ext with x := 0x02 } = .ok 0x0001 ∧
      resolve (.zeroPageY 0xFF) { ext with y := 0x02 } = .ok 0x0001 := by
  and_intros <;> rfl

/-- V-RES-9 to V-RES-11. -/
theorem test_resolve_absolute_wraps :
    resolve (.absoluteX 0xFFFF) { ext with x := 0x01 } = .ok 0x0000 ∧
      resolve (.absoluteX 0x12F0) { ext with x := 0x20 } = .ok 0x1310 ∧
      resolve (.absoluteY 0xFFFF) { ext with y := 0x01 } = .ok 0x0000 := by
  and_intros <;> rfl

/-- V-RES-12 and V-RES-16. -/
theorem test_resolve_indirect :
    resolve (.indirectX 0xFE)
        ((({ ext with x := 0x01 }.writeByte 0x00FF 0x34).writeByte 0x0000 0x12).writeByte 0x0100 0x56) =
      .ok 0x1234 ∧
    resolve (.indirectY 0x20) (({ ext with y := 0x20 }.writeByte 0x0020 0xF0).writeByte 0x0021 0x12) =
      .ok 0x1310 := by
  and_intros <;> rfl

/-- V-RES-8: operand bytes wrap at the top of memory. -/
theorem test_operand_word_wraps :
    (after (({ nam with pc := 0xFFFE }.writeByte 0x2010 0x5A)) [0xAD, 0x10, 0x20]).map (fun t => (t.a, t.pc)) =
      some (0x5A, 0x0001) := by decide

/-! ### One step of each instruction -/

/-- V-LD-6. -/
theorem test_lda_keeps_other_flags :
    (after { nam with p := flags [.c, .v, .d, .i, .b] } [0xA9, 0x00]).map (fun t => (t.a, t.p, t.pc)) =
      some (0x00, flags [.c, .v, .d, .i, .b, .z], 0x8002) := by decide

/-- V-RES-14, both settings. -/
theorem test_lda_indirectY_pointer_wrap :
    let s := ((((nam.writeByte 0x00FF 0x34).writeByte 0x0000 0x12).writeByte 0x0100 0x56).writeByte 0x1234
      0x01).writeByte 0x5634 0x02
    (after s [0xB1, 0xFF]).map (fun t => t.a) = some 0x01 ∧
      (after { s with config := { s.config with indirectYPointerWrap := .linear } } [0xB1, 0xFF]).map
        (fun t => t.a) = some 0x02 := by decide

/-- V-LD-9. -/
theorem test_ldx_absoluteY :
    (after ({ ext with y := 0x03 }.writeByte 0x9003 0xFE) [0xBE, 0x00, 0x90]).map (fun t => (t.x, t.p, t.pc)) =
      some (0xFE, flags [.n], 0x8003) := by decide

/-- V-LD-10. -/
theorem test_ldy_absoluteX :
    (after { ext with x := 0x02, y := 0x55 } [0xBC, 0xFF, 0xFF]).map (fun t => (t.y, t.p, t.pc)) =
      some (0x00, flags [.z], 0x8003) := by decide

/-- V-TR-1. -/
theorem test_tax :
    (after { nam with a := 0xC0, x := 0x11, p := flags [.z] } [0xAA]).map (fun t => (t.x, t.a, t.p, t.pc)) =
      some (0xC0, 0xC0, flags [.n], 0x8001) := by decide

/-- V-TR-4. -/
theorem test_tay :
    (after { ext with a := 0x00, y := 0x07 } [0xA8]).map (fun t => (t.y, t.p, t.pc)) =
      some (0x00, flags [.z], 0x8001) := by decide

/-- V-TR-5. -/
theorem test_txa :
    (after { ext with x := 0xFF, p := flags [.z] } [0x8A]).map (fun t => (t.a, t.x, t.p, t.pc)) =
      some (0xFF, 0xFF, flags [.n], 0x8001) := by decide

/-- V-TR-6. -/
theorem test_tya :
    (after { ext with a := 0x80, y := 0x01, p := flags [.n] } [0x98]).map (fun t => (t.a, t.y, t.p, t.pc)) =
      some (0x01, 0x01, flags [], 0x8001) := by decide

/-- V-ST-1: a store writes no flag. -/
theorem test_sta_zeroPage :
    (after { ext with a := 0xAB, p := flags [.z] } [0x85, 0x10]).map (fun t => (t.readByte 0x0010, t.p, t.pc)) =
      some (0xAB, flags [.z], 0x8002) := by decide

/-- V-ST-4. -/
theorem test_sta_indirectY :
    (after (({ ext with a := 0x09, y := 0x02 }.writeByte 0x0010 0xFF).writeByte 0x0011 0xFF) [0x91, 0x10]).map
      (fun t => t.readByte 0x0001) = some 0x09 := by decide

/-- V-ST-6. -/
theorem test_stx_zeroPageY :
    (after { ext with x := 0x07, y := 0x02 } [0x96, 0xFF]).map (fun t => (t.readByte 0x0001, t.pc)) =
      some (0x07, 0x8002) := by decide

/-- V-ST-7. -/
theorem test_sty_absolute :
    (after { ext with y := 0x09 } [0x8C, 0xFF, 0xFF]).map (fun t => (t.readByte 0xFFFF, t.pc)) =
      some (0x09, 0x8003) := by decide

/-- V-LOG-3. -/
theorem test_and :
    (after { nam with a := 0xF3 } [0x29, 0x3C]).map (fun t => (t.a, t.p, t.pc)) = some (0x30, flags [], 0x8002) := by
  decide

/-- V-LOG-6. -/
theorem test_ora :
    (after { nam with a := 0x01 } [0x09, 0x80]).map (fun t => (t.a, t.p, t.pc)) = some (0x81, flags [.n], 0x8002) := by
  decide

/-- V-CT-10: D has no effect on a result. -/
theorem test_ora_in_decimal_mode :
    (after { ext with a := 0x09, p := flags [.d] } [0x09, 0x01]).map (fun t => (t.a, t.p)) =
      some (0x09, flags [.d]) := by decide

/-- V-LOG-9. -/
theorem test_eor :
    (after { ext with a := 0x0F } [0x49, 0xFF]).map (fun t => (t.a, t.p, t.pc)) = some (0xF0, flags [.n], 0x8002) := by
  decide

/-- V-SH-1. -/
theorem test_asl_accumulator :
    (after { nam with a := 0x80 } [0x0A]).map (fun t => (t.a, t.p, t.pc)) =
      some (0x00, flags [.c, .z], 0x8001) := by decide

/-- V-SH-6: the target of ASL abs,X wraps to 0x0000. -/
theorem test_asl_absoluteX :
    (after (({ nam with x := 0x01, p := flags [.c] }).writeByte 0x0000 0x01) [0x1E, 0xFF, 0xFF]).map
      (fun t => (t.readByte 0x0000, t.p, t.a, t.pc)) = some (0x02, flags [], 0x00, 0x8003) := by decide

/-- V-SH-10. -/
theorem test_lsr_accumulator :
    (after { ext with a := 0x81 } [0x4A]).map (fun t => (t.a, t.p, t.pc)) = some (0x40, flags [.c], 0x8001) := by
  decide

/-- V-SH-13. -/
theorem test_rol_accumulator :
    (after { ext with a := 0x40, p := flags [.c] } [0x2A]).map (fun t => (t.a, t.p, t.pc)) =
      some (0x81, flags [.n], 0x8001) := by decide

/-- V-SH-16. -/
theorem test_ror_accumulator :
    (after { ext with a := 0x02, p := flags [.c] } [0x6A]).map (fun t => (t.a, t.p, t.pc)) =
      some (0x81, flags [.n], 0x8001) := by decide

/-- V-SH-17. -/
theorem test_ror_zeroPage :
    (after { ext with p := flags [.c] } [0x66, 0x10]).map (fun t => (t.readByte 0x0010, t.p, t.pc)) =
      some (0x80, flags [.n], 0x8002) := by decide

/-- V-ID-1, with C set: no fault, and C untouched (V-ID-3). -/
theorem test_inx_wraps :
    (after { nam with x := 0xFF, p := flags [.c, .n] } [0xE8]).map (fun t => (t.x, t.p, t.run, t.pc)) =
      some (0x00, flags [.c, .z], .running, 0x8001) := by decide

/-- V-ID-4. -/
theorem test_iny :
    (after { ext with y := 0xFF } [0xC8]).map (fun t => (t.y, t.p)) = some (0x00, flags [.z]) := by decide

/-- V-ID-5. -/
theorem test_dex :
    (after { ext with x := 0x00 } [0xCA]).map (fun t => (t.x, t.p)) = some (0xFF, flags [.n]) := by decide

/-- V-ID-7. -/
theorem test_dey :
    (after { ext with y := 0x80 } [0x88]).map (fun t => (t.y, t.p)) = some (0x7F, flags []) := by decide

/-- V-ID-10. -/
theorem test_inc_absoluteX :
    (after ({ ext with x := 0x01 }.writeByte 0x0000 0x7F) [0xFE, 0xFF, 0xFF]).map
      (fun t => (t.readByte 0x0000, t.p, t.pc)) = some (0x80, flags [.n], 0x8003) := by decide

/-- V-ID-9. -/
theorem test_dec_absolute :
    (after ext [0xCE, 0x00, 0x02]).map (fun t => (t.readByte 0x0200, t.p, t.pc)) =
      some (0xFF, flags [.n], 0x8003) := by decide

/-- V-CMP-2. -/
theorem test_cmp_below :
    (after { ext with a := 0x10, p := flags [.c, .v] } [0xC9, 0x20]).map (fun t => (t.a, t.p)) =
      some (0x10, flags [.v, .n]) := by decide

/-- V-CMP-5: N is bit 7 of the difference. -/
theorem test_cmp_above :
    (after { ext with a := 0xFF } [0xC9, 0x00]).map (fun t => (t.a, t.p)) = some (0xFF, flags [.c, .n]) := by decide

/-- V-CMP-8. -/
theorem test_cpx_equal :
    (after { ext with x := 0x05 } [0xE0, 0x05]).map (fun t => (t.x, t.p)) = some (0x05, flags [.c, .z]) := by decide

/-- V-CMP-10. -/
theorem test_cpy_absolute :
    (after ({ ext with y := 0x00 }.writeByte 0x0200 0xFF) [0xCC, 0x00, 0x02]).map (fun t => (t.y, t.p, t.pc)) =
      some (0x00, flags [], 0x8003) := by decide

/-- V-BR-1 and V-BR-2, both settings. -/
theorem test_bcc :
    (after { nam with pc := 0x8003 } [0x90, 0xFD]).map (fun t => t.pc) = some 0x8002 ∧
      (after { nam with pc := 0x8003, p := flags [.c] } [0x90, 0xFD]).map (fun t => t.pc) = some 0x8005 ∧
      (after { nam with pc := 0x8003, config := { nam.config with branchOffsetSigned := false } } [0x90, 0xFD]).map
        (fun t => t.pc) = some 0x8102 := by decide

/-- V-BR-9: the offset byte wraps to 0x0000. -/
theorem test_bcc_at_the_top :
    (after { nam with pc := 0xFFFF } [0x90, 0x02]).map (fun t => t.pc) = some 0x0003 := by decide

/-- V-BR-10. -/
theorem test_bcs :
    (after { ext with p := flags [.c] } [0xB0, 0x02]).map (fun t => t.pc) = some 0x8004 ∧
      (after ext [0xB0, 0x02]).map (fun t => t.pc) = some 0x8002 := by decide

/-- V-BR-11. -/
theorem test_beq :
    (after { ext with p := flags [.z] } [0xF0, 0x10]).map (fun t => t.pc) = some 0x8012 ∧
      (after ext [0xF0, 0x10]).map (fun t => t.pc) = some 0x8002 := by decide

/-- V-BR-12. -/
theorem test_bne :
    (after { ext with pc := 0x8010 } [0xD0, 0xF0]).map (fun t => t.pc) = some 0x8002 ∧
      (after { ext with pc := 0x8010, p := flags [.z] } [0xD0, 0xF0]).map (fun t => t.pc) = some 0x8012 := by decide

/-- V-BR-13. -/
theorem test_bmi :
    (after { ext with pc := 0xFFF0, p := flags [.n] } [0x30, 0x7F]).map (fun t => t.pc) = some 0x0071 ∧
      (after { ext with pc := 0xFFF0 } [0x30, 0x7F]).map (fun t => t.pc) = some 0xFFF2 := by decide

/-- V-BR-14. -/
theorem test_bpl :
    (after { ext with pc := 0x0010 } [0x10, 0x80]).map (fun t => t.pc) = some 0xFF92 ∧
      (after { ext with pc := 0x0010, p := flags [.n] } [0x10, 0x80]).map (fun t => t.pc) = some 0x0012 := by decide

/-- V-CT-2. -/
theorem test_jmp_at_the_top :
    (after { ext with pc := 0xFFFE } [0x4C, 0x00, 0x80]).map (fun t => t.pc) = some 0x8000 := by decide

/-- V-CT-4: the whole state but `pc` and `run` is as it was. -/
theorem test_brk :
    let s := { nam with a := 0xC0, x := 0xC1, p := flags [.n], pc := 0x8004 }
    after s [0x00] = some { s with pc := 0x8005, run := .halted .success } := by decide

/-- V-CT-6. -/
theorem test_nop : after ext [0xEA] = some { withBytes ext [0xEA] with pc := 0x8001 } := by decide

/-- V-CT-7. -/
theorem test_clc_sec :
    (after { ext with p := flags [.c, .v] } [0x18]).map (fun t => t.p) = some (flags [.v]) ∧
      (after ext [0x38]).map (fun t => t.p) = some (flags [.c]) := by decide

/-- V-CT-8. -/
theorem test_cli_sei :
    (after { ext with p := flags [.i, .v] } [0x58]).map (fun t => t.p) = some (flags [.v]) ∧
      (after ext [0x78]).map (fun t => t.p) = some (flags [.i]) := by decide

/-- V-CT-9. -/
theorem test_cld_sed :
    (after { ext with p := flags [.d, .v] } [0xD8]).map (fun t => t.p) = some (flags [.v]) ∧
      (after ext [0xF8]).map (fun t => t.p) = some (flags [.d]) := by decide

/-! ### Fatal halts, reset, the host's operations -/

/-- V-ILL-2 and V-ILL-5. -/
theorem test_illegal :
    (after { nam with x := 0x09 } [0xA2, 0x05]).map (fun t => (t.run, t.pc, t.x)) =
        some (.halted (.fatal .illegalInstruction), 0x8001, 0x09) ∧
      (after { ext with pc := 0xFFFF } [0xFF]).map (fun t => (t.run, t.pc)) =
        some (.halted (.fatal .illegalInstruction), 0x0000) := by decide

/-- V-RST-1. -/
theorem test_reset :
    let s := (({ ext with a := 0x12, x := 0x34, y := 0x56, p := flags [.c, .z, .i, .d, .b, .v, .n], pc := 0x1234 }
      ).writeByte 0xFFFC 0xCD).writeByte 0xFFFD 0xAB
    s.hostReset = { s with a := 0, x := 0, y := 0, p := flags [], pc := 0xABCD } := by decide

/-- V-RST-3 and V-RST-4. -/
theorem test_load_program :
    let s := ({ nam with a := 0x77 }.writeByte 0xFFFC 0x11).writeByte 0xFFFD 0x22
    s.loadProgram [0xA9, 0xC0] = .next { s with mem := [(0x8000, 0xA9), (0x8001, 0xC0), (0xFFFD, 0x80)] } ∧
      ({ s with config := { s.config with resetCapable := false } }).loadProgram [0xA9, 0xC0] =
        .next { s with
          mem := [(0x8000, 0xA9), (0x8001, 0xC0), (0xFFFC, 0x11), (0xFFFD, 0x22)]
          config := { s.config with resetCapable := false } } := by
  and_intros <;> rfl

/-- V-P-1 to V-P-3. -/
theorem test_packed_status :
    (flags [.n, .c]).pack = 0x81 ∧ (flags [.c, .z, .i, .d, .b, .v, .n]).pack = 0xDF ∧
      (ext.writeP 0xFF).readP = 0xDF := by decide

/-- V-MEM-2 and V-MEM-3. -/
theorem test_word_access :
    (ext.write16 0xFFFF 0xABCD).mem = [(0x0000, 0xAB), (0xFFFF, 0xCD)] ∧
      (ext.write16 0xFFFF 0xABCD).read16 0xFFFF = 0xABCD ∧
      (((ext.writeByte 0x00FF 0x34).writeByte 0x0100 0x12).writeByte 0x0000 0x56).read16 0x00FF = 0x1234 := by decide

/-- V-MEM-6 and V-MEM-7. -/
theorem test_write_slice :
    ext.writeSlice 0xFFFE [0x01, 0x02] = .next { ext with mem := [(0xFFFE, 0x01), (0xFFFF, 0x02)] } ∧
      ext.writeSlice 0xFFFF [0x01, 0x02] = .refused (.sliceOutOfRange 0xFFFF 2) := by
  and_intros <;> rfl

/-- R48's order, on a read-modify-write: ASL abs,X of V-SH-6. -/
theorem test_accesses :
    stepAccesses (withBytes ({ nam with x := 0x01 }.writeByte 0x0000 0x01) [0x1E, 0xFF, 0xFF]) =
      [⟨.opcodeFetch, 0x8000, 0x1E⟩, ⟨.operandRead, 0x8001, 0xFF⟩, ⟨.operandRead, 0x8002, 0xFF⟩,
        ⟨.dataRead, 0x0000, 0x01⟩, ⟨.dataWrite, 0x0000, 0x02⟩] := by decide

/-- A table word placed at reset runs, in the profile that populates it (log entry 4). -/
theorem test_withFetchWord :
    (State.reset.withFetchWord 24 0x1234AD).fetchInstr = .ok (.ldaAbsolute 0x1234) ∧
      (State.reset.withFetchWord 8 0xA2).fetchInstr = .ok (.ldxImmediate 0x00) := by
  and_intros <;> rfl

/-! ### Witnesses: something meets the hypotheses of each statement, clause by clause -/

/-- A Running state at the top of memory whose next step is STA abs into the address after the instruction. -/
def storing : State := withBytes { ext with a := 0xE8, pc := 0xFFFE } [0x8D, 0x01, 0x00]

theorem storing_fetches : storing.run = .running ∧ storing.fetchInstr = .ok (.staAbsolute 0x0001) ∧
    step storing = .next { storing with pc := 0x0001, mem := [(0x0001, 0xE8), (0xFFFE, 0x8D), (0xFFFF, 0x01)] } := by
  and_intros <;> rfl

theorem storing_stands : standsAt (.staAbsolute 0x0001) storing := standsAt_of_all (by decide)

theorem storing_inv : storing.Inv := by unfold State.Inv; decide

theorem witness_DecodeOfEncode :
    (Instr.ldaIndirectY 0xFF).wellFormed .named = true ∧ (Instr.jmp 0xFFFF).wellFormed .extended = true := by decide

theorem witness_EncodeOfDecode : decode .named [0xBD, 0xFF, 0xFF, 0x00] = .ok (.ldaAbsoluteX 0xFFFF, [0x00]) := rfl

theorem witness_PopulatedOpcodeCounts : ∃ r, lookup .named 0x00 = some r := ⟨_, rfl⟩

theorem witness_StepRunsDecodedInstruction :
    storing.run = .running ∧ (Instr.staAbsolute 0x0001).wellFormed storing.config.opcodeProfile = true ∧
      standsAt (.staAbsolute 0x0001) storing :=
  ⟨rfl, rfl, storing_stands⟩

theorem witness_IllegalOpcodeHaltsFatal :
    ∃ s : State, s.run = .running ∧ s.pc = 0xFFFF ∧ ¬ populated s (s.readByte s.pc) :=
  ⟨withBytes { ext with pc := 0xFFFF } [0xFF], rfl, rfl, not_populated_of_lookup rfl⟩

theorem witness_HaltedCoreHasNoStep :
    ∃ (s : State) (t : State), s.run = .halted .success ∧ s.command (.write 0xFFFF 0x01) = .next t :=
  ⟨{ ext with run := .halted .success }, _, rfl, rfl⟩

/-- One state for each of the three outcomes. -/
theorem witness_RunningStepHasThreeOutcomes :
    (∃ s : State, s.run = .running ∧ s.readByte s.pc = 0x00) ∧
    (∃ s : State, s.run = .running ∧ ¬ populated s (s.readByte s.pc)) ∧
    ∃ s : State, s.run = .running ∧ populated s (s.readByte s.pc) ∧ s.readByte s.pc ≠ 0x00 :=
  ⟨⟨ext, rfl, rfl⟩, ⟨withBytes nam [0xA2], rfl, not_populated_of_lookup rfl⟩,
    storing, rfl, ⟨.staAbsolute 0x0001, rfl, rfl⟩, by decide⟩

/-- One state for each row: an unpopulated byte, a register-only form, a memory form, a branch not taken, a branch
taken and JMP, the last five at the top of memory. -/
theorem witness_PcAfterOneStep :
    (∃ s : State, s.run = .running ∧ ¬ populated s (s.readByte s.pc)) ∧
    (∀ i ∈ [(Instr.nop, flags []), (.aslAccumulator, flags []), (.staAbsolute 0x0001, flags []),
        (.bcc 0x80, flags [.c]), (.bcc 0x80, flags []), (.jmp 0xFFFF, flags [])],
      ∃ s : State, s.run = .running ∧ s.p = i.2 ∧ i.1.wellFormed s.config.opcodeProfile = true ∧ standsAt i.1 s) ∧
    branchTaken (flags [.c]) .bcc = some false ∧ branchTaken (flags []) .bcc = some true := by
  refine ⟨⟨withBytes ext [0xFF], rfl, not_populated_of_lookup rfl⟩, ?_, rfl, rfl⟩
  intro i hi
  refine ⟨withBytes { ext with pc := 0xFFFE, p := i.2 } (encode i.1), rfl, rfl, rfl, standsAt_of_all ?_⟩
  revert hi i
  decide

/-- A state with a step, and one that has ended. -/
theorem witness_BoundedRunsCompose : (∃ t, step storing = .next t) ∧ ∃ s : State, s.run ≠ .running :=
  ⟨⟨_, storing_fetches.2.2⟩, { ext with run := .halted (.fatal .illegalInstruction) }, by decide⟩

theorem witness_ExtendedProfileExtendsNamed :
    ∃ s t : State, s.config.opcodeProfile = .named ∧ populated s (s.readByte s.pc) ∧ step s = .next t :=
  ⟨withBytes nam [0xA9, 0xFF], _, rfl, ⟨.ldaImmediate 0xFF, rfl, rfl⟩, rfl⟩

theorem witness_PlacedWordRunsNext : State.reset.Inv ∧ decodeTableWord 16 0xFFA2 = some (.ldxImmediate 0xFF) :=
  ⟨rfl, rfl⟩

theorem witness_ZeroPageAddresses : (Instr.stxZeroPageY 0xFF).operand.mode = .zeroPageY := rfl

/-- Both settings of the parameter, and an operand byte other than 0xFF. -/
theorem witness_IndirectAddresses :
    (∃ s : State, s.config.indirectYPointerWrap = .page0 ∧ s.readByte s.pc = 0xFF) ∧
    (∃ s : State, s.config.indirectYPointerWrap = .linear ∧ s.readByte s.pc = 0xFF) ∧
    ∃ s : State, (s.readByte s.pc).toNat ≠ 255 :=
  ⟨⟨withBytes ext [0xFF], rfl, rfl⟩,
    ⟨withBytes { ext with config := { ext.config with indirectYPointerWrap := .linear } } [0xFF], rfl, rfl⟩,
    withBytes ext [0xFE], by decide⟩

/-- The three modes without an address, one with, and an instruction's next state. -/
theorem witness_InvalidAddressingModeHasNoEffect :
    Operand.accumulator.mode = .accumulator ∧ Operand.implied.mode = .implied ∧
    Operand.unresolved.mode = .unresolved ∧
    ((Operand.indirectY 0xFF).mode ≠ .accumulator ∧ (Operand.indirectY 0xFF).mode ≠ .implied ∧
      (Operand.indirectY 0xFF).mode ≠ .unresolved) ∧
    ∃ (i : Instr) (s t : State), s.run = .running ∧ exec i s = .next t :=
  ⟨rfl, rfl, rfl, by decide, .aslAccumulator, ext, _, rfl, rfl⟩

theorem witness_CarriedOperandIsTheOneInMemory :
    standsAt (.staAbsolute 0x0001) storing ∧
      ∃ ea, resolve (Instr.staAbsolute 0x0001).operand { storing with pc := storing.pc + 1 } = .ok ea :=
  ⟨storing_stands, _, rfl⟩

theorem witness_ByteWriteChangesOneByte : storing.Inv := storing_inv

theorem witness_WordAccessIsLittleEndian : storing.Inv := storing_inv

theorem witness_StepKeepsMemoryCanonical : storing.Inv ∧ ∃ t, step storing = .next t :=
  ⟨storing_inv, _, storing_fetches.2.2⟩

theorem witness_EqualBytesEqualMemory :
    storing.Inv ∧ { storing with a := 0x00 }.Inv ∧
      ∀ a, storing.readByte a = { storing with a := 0x00 }.readByte a :=
  ⟨storing_inv, storing_inv, fun _ => rfl⟩

theorem witness_ReachableStatesKeepInvariantAndParameters :
    ∃ t : State, storing.Inv ∧ ReachableFrom storing t ∧ t ≠ storing :=
  ⟨storing.writeByte 0xFFFF 0x00, storing_inv, .command (.write 0xFFFF 0x00) .here rfl, by decide⟩

/-- A step whose accesses hold a data write. -/
theorem witness_AccessesAccountForMemory :
    (∃ t, step storing = .next t) ∧ ⟨.dataWrite, 0x0001, 0xE8⟩ ∈ stepAccesses storing :=
  ⟨⟨_, storing_fetches.2.2⟩, by decide⟩

/-- The byte is stored where the program counter then stands. -/
theorem witness_StoreIsSeenByTheNextFetch :
    ∃ (i : Instr) (s t : State) (ea : Word) (v : Byte), s.Inv ∧ exec i s = .next t ∧ resolve i.operand s = .ok ea ∧
      s.storedByte i.mnemonic (s.readByte ea) = some v ∧ t.pc = ea :=
  ⟨.staAbsolute 0x8002, { ext with a := 0xE8 }, _, _, _, rfl, rfl, rfl, rfl, rfl⟩

/-- The longest slice that fits, and the shortest that does not; no value meets both. -/
theorem witness_SliceWrite :
    State.reset.Inv ∧ (0xFFFF : Word).toNat + [(0x01 : Byte)].length ≤ 65536 ∧
      65536 < (0xFFFF : Word).toNat + [(0x01 : Byte), 0x02].length := by
  refine ⟨rfl, ?_, ?_⟩ <;> decide

/-- The longest program that fits and the shortest that does not; a state of each kind of configuration; and the last
byte below the copy, its first byte, and the four bytes from 0xFFFB to 0xFFFE, of which the longest program covers every
one and the vector the middle two alone, so that no address falls under two of its clauses. -/
theorem witness_ProgramLoad :
    (ext.Inv ∧ ext.config.resetCapable = true) ∧
    (∃ s : State, s.Inv ∧ s.config.resetCapable = false) ∧
    (List.replicate 0x8000 (0x00 : Byte)).length ≤ 0x8000 ∧ 0x8000 < (List.replicate 0x8001 (0x00 : Byte)).length ∧
    ¬ 0x8000 ≤ (0x7FFF : Word).toNat ∧ 0x8000 ≤ (0x8000 : Word).toNat ∧
    (∀ c ∈ [(0xFFFB : Word), 0xFFFC, 0xFFFD, 0xFFFE], 0x8000 ≤ c.toNat ∧ c.toNat - 0x8000 < 0x8000) ∧
    (∀ c ∈ [(0xFFFB : Word), 0xFFFE], c ≠ 0xFFFC ∧ c ≠ 0xFFFD) ∧ (0xFFFD : Word) ≠ 0xFFFC := by
  refine ⟨⟨rfl, rfl⟩, ⟨{ ext with config := { ext.config with resetCapable := false } }, rfl, rfl⟩, ?_, ?_, ?_⟩
  · rw [List.length_replicate]
  · rw [List.length_replicate]
    decide
  · and_intros <;> simp

/-- A writer and a non-writer, a reader and a non-reader of A. -/
theorem witness_RegisterReadersAndWriters :
    (∃ t, exec (.staZeroPage 0xFF) ext = .next t) ∧ writesRegister .a (.staZeroPage 0xFF) = false ∧
    (∃ t, exec (.ldaImmediate 0xFF) ext = .next t) ∧ readsRegister .a (.ldaImmediate 0xFF) = false ∧
    writesRegister .a (.ldaImmediate 0xFF) = true :=
  ⟨⟨_, rfl⟩, rfl, ⟨_, rfl⟩, rfl, rfl⟩

theorem witness_FlagWriters : (∃ t, exec .inx ext = .next t) ∧ writesFlag .c .inx = false := ⟨⟨_, rfl⟩, rfl⟩

/-- Each of the four flags, and an instruction that is neither of the flag's two writers. -/
theorem witness_UnwiredFlagsAreNeverRead :
    (∃ t, exec .sec ext = .next t) ∧ Instr.sec.mnemonic ≠ .cld ∧ Instr.sec.mnemonic ≠ .sed ∧
      Instr.sec.mnemonic ≠ .cli ∧ Instr.sec.mnemonic ≠ .sei ∧
      ∀ f ∈ [Flag.v, .b, .d, .i], f = .v ∨ f = .b ∨ f = .d ∨ f = .i :=
  ⟨⟨_, rfl⟩, by decide, by decide, by decide, by decide, by decide⟩

/-- A form that stores nothing and one that stores. -/
theorem witness_OnlyTheStoredByteChanges :
    (∃ t, exec .aslAccumulator ext = .next t) ∧ storesToMemory .aslAccumulator = false ∧
    (∃ t, exec (.aslAbsoluteX 0xFFFF) ext = .next t) ∧ storesToMemory (.aslAbsoluteX 0xFFFF) = true :=
  ⟨⟨_, rfl⟩, rfl, ⟨_, rfl⟩, rfl⟩

theorem witness_NamedProfileNeverWritesY : nam.config.opcodeProfile = .named := rfl

/-- The last operand byte on the parameter-free side of each condition, and an untaken branch with the first
offset that is signed. -/
theorem witness_ParametersMatterOnlyWhereStated :
    (∃ t, exec (.bcc 0x7F) ext = .next t) ∧ (Instr.bcc 0x7F).operand ≠ .indirectY 0xFF ∧
    (∀ b, (Instr.bcc 0x7F).operand = .immediate b → b.toNat < 128) ∧
    (∃ t, exec (.ldaIndirectY 0xFE) ext = .next t) ∧ (Instr.ldaIndirectY 0xFE).operand ≠ .indirectY 0xFF ∧
    branchTaken ext.p (Instr.ldaIndirectY 0xFE).mnemonic ≠ some true ∧
    (∃ t, exec (.bcs 0x80) ext = .next t) ∧ (Instr.bcs 0x80).operand ≠ .indirectY 0xFF ∧
    branchTaken ext.p (Instr.bcs 0x80).mnemonic ≠ some true := by
  refine ⟨⟨_, rfl⟩, by decide, ?_, ⟨_, rfl⟩, by decide, by decide, ⟨_, rfl⟩, by decide, by decide⟩
  rintro b ⟨⟩
  decide

/-- The operand that LoadAccumulator, LoadIndexRegisters, LogicalOperations and Compares find at `pc`. -/
theorem witness_operandAtPc :
    (withBytes ext [0xFF]).operandAtPc (Instr.ldaImmediate 0xFF).operand.mode = (Instr.ldaImmediate 0xFF).operand := rfl

/-- The hypotheses of the statements of results (LoadAccumulator to Compares): an instruction of each mnemonic they name, a memory form at the
last operand value where there is one. -/
theorem witness_results :
    (Instr.ldaIndirectY 0xFF).mnemonic = .lda ∧ (Instr.ldxZeroPageY 0xFF).mnemonic = .ldx ∧
    (Instr.ldyAbsoluteX 0xFFFF).mnemonic = .ldy ∧ (Instr.staIndirectY 0xFF).mnemonic = .sta ∧
    (Instr.stxAbsolute 0xFFFF).mnemonic = .stx ∧ (Instr.styAbsolute 0xFFFF).mnemonic = .sty ∧
    (Instr.andAbsoluteX 0xFFFF).mnemonic = .and ∧ (Instr.oraAbsoluteY 0xFFFF).mnemonic = .ora ∧
    (Instr.eorIndirectX 0xFF).mnemonic = .eor ∧
    ((Instr.aslAbsoluteX 0xFFFF).mnemonic = .asl ∧ Instr.aslAbsoluteX 0xFFFF ≠ .aslAccumulator) ∧
    ((Instr.lsrAbsoluteX 0xFFFF).mnemonic = .lsr ∧ Instr.lsrAbsoluteX 0xFFFF ≠ .lsrAccumulator) ∧
    ((Instr.rolAbsoluteX 0xFFFF).mnemonic = .rol ∧ Instr.rolAbsoluteX 0xFFFF ≠ .rolAccumulator) ∧
    ((Instr.rorAbsoluteX 0xFFFF).mnemonic = .ror ∧ Instr.rorAbsoluteX 0xFFFF ≠ .rorAccumulator) ∧
    (Instr.incAbsoluteX 0xFFFF).mnemonic = .inc ∧ (Instr.decAbsoluteX 0xFFFF).mnemonic = .dec ∧
    ((Instr.cmpIndirectY 0xFF).mnemonic = .cmp ∧ (0x00 : Byte) = ext.a) ∧
    ((Instr.cpxAbsolute 0xFFFF).mnemonic = .cpx ∧ (0x00 : Byte) = ext.x) ∧
    ((Instr.cpyAbsolute 0xFFFF).mnemonic = .cpy ∧ (0x00 : Byte) = ext.y) := by
  and_intros <;> first | rfl | decide

end Sys2Proof.Tests
end

/-! ## The register file and the status register (10_state.md R13 to R25) -/

section
/-! What the status unit, the register updates and the flag updates do to one another. -/

namespace Sys2Proof.Machine

/-! ### The status unit (R20 to R23) -/

theorem Status.test_set (p : Status) (f g : Flag) (on : Bool) :
    (p.set f on).test g = if g = f then on else p.test g := by
  cases f <;> cases g <;> rfl

theorem Status.test_setZN {f : Flag} (hz : f ≠ .z) (hn : f ≠ .n) (p : Status) (v : Byte) :
    (p.setZN v).test f = p.test f := by
  cases f with
  | z => contradiction
  | n => contradiction
  | _ => rfl

theorem Status.test_setCarry {f : Flag} (hc : f ≠ .c) (p : Status) (on : Bool) :
    (p.setCarry on).test f = p.test f := by
  cases f with
  | c => contradiction
  | _ => rfl

theorem Status.setZN_eq_zn (p : Status) (v : Byte) : p.setZN v = Claims.zn p v := by
  simp only [Status.setZN, Claims.zn, beq_zero_toNat, getLsbD_seven]

theorem Status.pack_bits (p : Status) :
    (List.range 8).map p.pack.getLsbD = [p.c, p.z, p.i, p.d, p.b, false, p.v, p.n] := by
  obtain ⟨c, z, i, d, b, v, n⟩ := p
  revert c z i d b v n
  decide

theorem Status.unpack_pack (p : Status) : Status.unpack p.pack = p := by
  have hbits := p.pack_bits
  simp only [List.range, List.range.loop, List.map_cons, List.map_nil, List.cons.injEq, and_true] at hbits
  obtain ⟨hc, hz, hi, hd, hb, -, hv, hn⟩ := hbits
  simp only [Status.unpack, hc, hz, hi, hd, hb, hv, hn]

/-- Every bit of a written value is read back but bit 5 (R20, D7). -/
theorem Status.pack_unpack (w : Byte) : (Status.unpack w).pack = w &&& 0xDF := by
  revert w
  decide

/-! ### A register update moves past every other update -/

theorem State.setReg_same (s : State) (r : Register) (v b : Byte) :
    (s.setReg r v).setReg r b = s.setReg r b := by cases r <;> rfl

theorem State.setReg_comm {r r' : Register} (h : r ≠ r') (s : State) (v b : Byte) :
    (s.setReg r v).setReg r' b = (s.setReg r' b).setReg r v := by
  cases r <;> cases r' <;> trivial

theorem State.setCarry_setReg (s : State) (r : Register) (v : Byte) (on : Bool) :
    (s.setReg r v).setCarry on = (s.setCarry on).setReg r v := by cases r <;> rfl

theorem State.setZN_setReg (s : State) (r : Register) (v b : Byte) :
    (s.setReg r v).setZN b = (s.setZN b).setReg r v := by cases r <;> rfl

theorem State.setFlag_setReg (s : State) (r : Register) (v : Byte) (f : Flag) (on : Bool) :
    (s.setReg r v).setFlag f on = (s.setFlag f on).setReg r v := by cases r <;> rfl

theorem State.setPc_setReg (s : State) (r : Register) (v : Byte) (w : Word) :
    (s.setReg r v).setPc w = (s.setPc w).setReg r v := by cases r <;> rfl

theorem State.advance_setReg (s : State) (r : Register) (v : Byte) (n : Nat) :
    (s.setReg r v).advance n = (s.advance n).setReg r v := by cases r <;> rfl

theorem State.writeByte_setReg (s : State) (r : Register) (v : Byte) (c : Word) (b : Byte) :
    (s.setReg r v).writeByte c b = (s.writeByte c b).setReg r v := by cases r <;> rfl

theorem State.haltSuccess_setReg (s : State) (r : Register) (v : Byte) :
    (s.setReg r v).haltSuccess = s.haltSuccess.setReg r v := by cases r <;> rfl

theorem State.reg_setReg_of_ne {r r' : Register} (h : r' ≠ r) (s : State) (v : Byte) :
    (s.setReg r v).reg r' = s.reg r' := by
  rw [State.reg_setReg, if_neg h]

/-! ### A flag update moves past the updates that do not write the flag -/

theorem State.setFlag_same (s : State) (f : Flag) (on on' : Bool) :
    (s.setFlag f on).setFlag f on' = s.setFlag f on' := by cases f <;> rfl

theorem State.setFlag_comm {f g : Flag} (h : f ≠ g) (s : State) (on on' : Bool) :
    (s.setFlag f on).setFlag g on' = (s.setFlag g on').setFlag f on := by
  cases f <;> cases g <;> trivial

theorem State.setCarry_setFlag {f : Flag} (hc : f ≠ .c) (s : State) (on on' : Bool) :
    (s.setFlag f on).setCarry on' = (s.setCarry on').setFlag f on := by
  cases f with
  | c => contradiction
  | _ => rfl

theorem State.setZN_setFlag {f : Flag} (hz : f ≠ .z) (hn : f ≠ .n) (s : State) (on : Bool) (v : Byte) :
    (s.setFlag f on).setZN v = (s.setZN v).setFlag f on := by
  cases f with
  | z => contradiction
  | n => contradiction
  | _ => rfl

theorem State.setPc_setFlag (s : State) (f : Flag) (on : Bool) (w : Word) :
    (s.setFlag f on).setPc w = (s.setPc w).setFlag f on := rfl

theorem State.advance_setFlag (s : State) (f : Flag) (on : Bool) (n : Nat) :
    (s.setFlag f on).advance n = (s.advance n).setFlag f on := rfl

theorem State.writeByte_setFlag (s : State) (f : Flag) (on : Bool) (c : Word) (b : Byte) :
    (s.setFlag f on).writeByte c b = (s.writeByte c b).setFlag f on := rfl

theorem State.haltSuccess_setFlag (s : State) (f : Flag) (on : Bool) :
    (s.setFlag f on).haltSuccess = s.haltSuccess.setFlag f on := rfl

/-! ### What reading an operand depends on -/

theorem State.operandByte_congr {s t : State} (h : t.mem = s.mem) (o : Operand) (ea : Word) :
    t.operandByte o ea = s.operandByte o ea := by
  cases o with
  | immediate v => rfl
  | _ => exact State.readByte_of_mem h ea

@[simp] theorem State.operandByte_setReg (s : State) (r : Register) (v : Byte) (o : Operand) (ea : Word) :
    (s.setReg r v).operandByte o ea = s.operandByte o ea :=
  State.operandByte_congr (s.setReg_mem r v) o ea

@[simp] theorem State.operandByte_setFlag (s : State) (f : Flag) (on : Bool) (o : Operand) (ea : Word) :
    (s.setFlag f on).operandByte o ea = s.operandByte o ea :=
  State.operandByte_congr (s.setFlag_mem f on) o ea

@[simp] theorem State.branchOffset_setReg (s : State) (r : Register) (v b : Byte) :
    (s.setReg r v).branchOffset b = s.branchOffset b := by
  rw [State.branchOffset, State.branchOffset, State.setReg_config]

@[simp] theorem State.branchOffset_setFlag (s : State) (f : Flag) (on : Bool) (b : Byte) :
    (s.setFlag f on).branchOffset b = s.branchOffset b := rfl

@[simp] theorem resolve_setFlag (o : Operand) (s : State) (f : Flag) (on : Bool) :
    resolve o (s.setFlag f on) = resolve o s :=
  resolve_congr o rfl rfl rfl rfl rfl

/-- R14's index clause: X and Y reach the resolver through their indexed modes alone. -/
theorem resolve_setReg {i : Instr} {r : Register} (hr : Claims.readsRegister r i = false) (s : State) (v : Byte) :
    resolve i.operand (s.setReg r v) = resolve i.operand s := by
  cases r with
  | a => exact resolve_congr _ rfl rfl rfl rfl rfl
  | x =>
    have hmode := (Bool.or_eq_false_iff.mp hr).2
    revert hmode
    cases i.operand <;>
      simp [Operand.mode, resolve, State.indirectYPointer, State.zpRead16, State.read16]
  | y =>
    have hmode := (Bool.or_eq_false_iff.mp hr).2
    revert hmode
    cases i.operand <;> simp [Operand.mode, resolve, State.zpRead16]

end Sys2Proof.Machine
end

section
/-! R14 over the effects of an instruction: which register each effect writes and which it reads. -/

namespace Sys2Proof.Machine

open Sys2Proof.Claims

variable {i : Instr} {s t : State} {r : Register}

/-- The register that an instruction writes, if any: R14 gives no instruction two. -/
def registerTarget (i : Instr) : Option Register :=
  match i.mnemonic with
  | .lda | .and | .ora | .eor | .txa | .tya => some .a
  | .asl | .lsr | .rol | .ror => if i.operand.mode == .accumulator then some .a else none
  | .tax | .inx | .ldx | .dex => some .x
  | .ldy | .iny | .dey | .tay => some .y
  | .bcc | .brk | .sta | .stx | .sty | .inc | .dec | .cmp | .cpx | .cpy | .bcs | .beq | .bne | .bmi | .bpl
  | .jmp | .nop | .clc | .sec | .cli | .sei | .cld | .sed => none

/-- The register whose value an instruction uses as data, if any: R14's readers but for the indexed modes. -/
def registerSource (i : Instr) : Option Register :=
  match i.mnemonic with
  | .and | .ora | .eor | .tax | .tay | .sta | .cmp => some .a
  | .asl | .lsr | .rol | .ror => if i.operand.mode == .accumulator then some .a else none
  | .inx | .dex | .stx | .cpx | .txa => some .x
  | .iny | .dey | .sty | .cpy | .tya => some .y
  | .lda | .bcc | .brk | .ldx | .ldy | .inc | .dec | .bcs | .beq | .bne | .bmi | .bpl | .jmp | .nop
  | .clc | .sec | .cli | .sei | .cld | .sed => none

theorem writesRegister_iff_target : writesRegister r i = true ↔ registerTarget i = some r := by
  cases hm : i.mnemonic <;> cases r <;> simp [writesRegister, registerTarget, hm]

theorem reg_setReg_of_target {dst : Register} (ht : registerTarget i = some dst) (hr : registerTarget i ≠ some r)
    (s : State) (v : Byte) : (s.setReg dst v).reg r = s.reg r := by
  refine State.reg_setReg_of_ne ?_ s v
  rintro rfl
  exact hr ht

theorem readsRegister_of_source (h : registerSource i = some r) : readsRegister r i = true := by
  revert h
  cases hm : i.mnemonic <;> cases r <;> simp +contextual [readsRegister, registerSource, hm]

theorem ne_of_source {src : Register} (hr : readsRegister r i = false) (h : registerSource i = some src) :
    src ≠ r := by
  rintro rfl
  simp [readsRegister_of_source h] at hr

theorem Effect.reg_eq (he : Effect i s t) (hr : registerTarget i ≠ some r) : t.reg r = s.reg r := by
  cases he with
  | load dst ea hm h =>
    have ht : registerTarget i = some dst := by grind [registerTarget]
    simp [reg_setReg_of_target ht hr]
  | logical f ea hm h =>
    have ht : registerTarget i = some .a := by grind [registerTarget]
    simp [reg_setReg_of_target ht hr]
  | shiftAccumulator op hm ho =>
    have ht : registerTarget i = some .a := by grind [registerTarget, Operand.mode]
    simp [reg_setReg_of_target ht hr]
  | countRegister f dst hm =>
    have ht : registerTarget i = some dst := by grind [registerTarget]
    simp [reg_setReg_of_target ht hr]
  | transfer src dst hm =>
    have ht : registerTarget i = some dst := by grind [registerTarget]
    simp [reg_setReg_of_target ht hr]
  | _ => simp

/-- The two-run form of R14: a register that is not an instruction's to read makes no difference to its effect, and
is carried through it unless it is written. -/
theorem Effect.setReg (he : Effect i s t) (hr : readsRegister r i = false) (v : Byte) :
    Effect i (s.setReg r v) (if registerTarget i = some r then t else t.setReg r v) := by
  have haddr := resolve_setReg hr s v
  cases he with
  | load dst ea hm h =>
    have ht : registerTarget i = some dst := by grind [registerTarget]
    have := Effect.load (s := s.setReg r v) dst ea hm (haddr.trans h)
    by_cases e : r = dst
    · subst e
      simpa [ht, State.setReg_same] using this
    · simpa [ht, Ne.symm e, State.setReg_comm e, State.setZN_setReg, State.advance_setReg] using this
  | store src ea hm h =>
    have ht : registerTarget i = none := by grind [registerTarget]
    have hs : src ≠ r := ne_of_source hr (by grind [registerSource])
    simpa [ht, State.reg_setReg_of_ne hs, State.writeByte_setReg, State.advance_setReg] using
      Effect.store (s := s.setReg r v) src ea hm (haddr.trans h)
  | logical f ea hm h =>
    have ht : registerTarget i = some .a := by grind [registerTarget]
    have hs : .a ≠ r := ne_of_source hr (by grind [registerSource])
    have ha : (s.setReg r v).a = s.a := State.reg_setReg_of_ne hs s v
    simpa [ht, hs, ha, State.setReg_comm hs.symm, State.setZN_setReg, State.advance_setReg] using
      Effect.logical (s := s.setReg r v) f ea hm (haddr.trans h)
  | shiftAccumulator op hm ho =>
    have ht : registerTarget i = some .a := by grind [registerTarget, Operand.mode]
    have hs : .a ≠ r := ne_of_source hr (by grind [registerSource, Operand.mode])
    have ha : (s.setReg r v).a = s.a := State.reg_setReg_of_ne hs s v
    simpa [ht, hs, ha, State.setReg_comm hs.symm, State.setCarry_setReg, State.setZN_setReg] using
      Effect.shiftAccumulator (s := s.setReg r v) op hm ho
  | shiftMemory op ea hm ho h =>
    have ht : registerTarget i = none := by grind [registerTarget]
    simpa [ht, State.writeByte_setReg, State.setCarry_setReg, State.setZN_setReg, State.advance_setReg] using
      Effect.shiftMemory (s := s.setReg r v) op ea hm ho (haddr.trans h)
  | countRegister f dst hm =>
    have ht : registerTarget i = some dst := by grind [registerTarget]
    have hs : dst ≠ r := ne_of_source hr (by grind [registerSource])
    simpa [ht, hs, State.reg_setReg_of_ne hs, State.setReg_comm hs.symm, State.setZN_setReg] using
      Effect.countRegister (s := s.setReg r v) f dst hm
  | countMemory f ea hm h =>
    have ht : registerTarget i = none := by grind [registerTarget]
    simpa [ht, State.writeByte_setReg, State.setZN_setReg, State.advance_setReg] using
      Effect.countMemory (s := s.setReg r v) f ea hm (haddr.trans h)
  | compare src ea hm h =>
    have ht : registerTarget i = none := by grind [registerTarget]
    have hs : src ≠ r := ne_of_source hr (by grind [registerSource])
    simpa [ht, State.reg_setReg_of_ne hs, State.setCarry_setReg, State.setZN_setReg, State.advance_setReg] using
      Effect.compare (s := s.setReg r v) src ea hm (haddr.trans h)
  | branch f on b hm ho =>
    have ht : registerTarget i = none := by grind [registerTarget]
    simpa [ht, State.setPc_setReg] using Effect.branch (s := s.setReg r v) f on b hm ho
  | jump w hi =>
    subst hi
    simpa [registerTarget, Instr.mnemonic, State.setPc_setReg] using Effect.jump (s := s.setReg r v) w rfl
  | transfer src dst hm =>
    have ht : registerTarget i = some dst := by grind [registerTarget]
    have hs : src ≠ r := ne_of_source hr (by grind [registerSource])
    have := Effect.transfer (s := s.setReg r v) src dst hm
    by_cases e : r = dst
    · subst e
      simpa [ht, State.reg_setReg_of_ne hs, State.setReg_same] using this
    · simpa [ht, Ne.symm e, State.reg_setReg_of_ne hs, State.setReg_comm e, State.setZN_setReg] using this
  | endProgram hi =>
    subst hi
    simpa [registerTarget, Instr.mnemonic, State.haltSuccess_setReg] using Effect.endProgram (s := s.setReg r v) rfl
  | noOperation hi =>
    subst hi
    simpa [registerTarget, Instr.mnemonic] using Effect.noOperation (s := s.setReg r v) rfl
  | writeFlag f on hm =>
    have ht : registerTarget i = none := by grind [registerTarget]
    simpa [ht, State.setFlag_setReg] using Effect.writeFlag (s := s.setReg r v) f on hm

end Sys2Proof.Machine
end

section
/-! R23 to R25 over the effects of an instruction: which flags each effect writes and which it reads. -/

namespace Sys2Proof.Machine

open Sys2Proof.Claims

variable {i : Instr} {s t : State} {f : Flag}

/-- The flags that a mnemonic writes: R25's table, read by mnemonic. -/
def flagTargets : Mnemonic → List Flag
  | .lda | .ldx | .ldy | .and | .ora | .eor | .tax | .tay | .txa | .tya | .inx | .iny | .dex | .dey
  | .inc | .dec => [.z, .n]
  | .asl | .lsr | .rol | .ror | .cmp | .cpx | .cpy => [.c, .z, .n]
  | .clc | .sec => [.c]
  | .cli | .sei => [.i]
  | .cld | .sed => [.d]
  | .bcc | .bcs | .beq | .bne | .bmi | .bpl | .jmp | .brk | .nop | .sta | .stx | .sty => []

theorem writesFlag_iff_target : writesFlag f i = true ↔ f ∈ flagTargets i.mnemonic := by
  cases hm : i.mnemonic <;> cases f <;> simp [writesFlag, flagTargets, hm]

theorem Effect.test_eq (he : Effect i s t) (hf : f ∉ flagTargets i.mnemonic) : t.p.test f = s.p.test f := by
  cases he
  case load | logical | countRegister | countMemory | transfer =>
    have htargets : flagTargets i.mnemonic = [.z, .n] := by grind [flagTargets]
    obtain ⟨hz, hn⟩ : f ≠ .z ∧ f ≠ .n := by simpa [htargets] using hf
    simp [Status.test_setZN hz hn]
  case shiftAccumulator | shiftMemory | compare =>
    have htargets : flagTargets i.mnemonic = [.c, .z, .n] := by grind [flagTargets]
    obtain ⟨hc, hz, hn⟩ : f ≠ .c ∧ f ≠ .z ∧ f ≠ .n := by simpa [htargets] using hf
    simp [Status.test_setZN hz hn, Status.test_setCarry hc]
  case writeFlag g on hm =>
    have htargets : flagTargets i.mnemonic = [g] := by grind [flagTargets]
    have hg : f ≠ g := by simpa [htargets] using hf
    simp [Status.test_set, hg]
  all_goals simp

/-- The two-run form of R24: a flag other than C, Z and N makes no difference to an instruction's effect, and is
carried through it unless it is written. -/
theorem Effect.setFlag (he : Effect i s t) (hc : f ≠ .c) (hz : f ≠ .z) (hn : f ≠ .n) (on : Bool) :
    Effect i (s.setFlag f on) (if f ∈ flagTargets i.mnemonic then t else t.setFlag f on) := by
  have haddr := resolve_setFlag i.operand s f on
  have hcarry : (s.p.set f on).c = s.p.c := (Status.test_set s.p f .c on).trans (if_neg hc.symm)
  cases he with
  | load dst ea hm h =>
    have ht : flagTargets i.mnemonic = [.z, .n] := by grind [flagTargets]
    simpa [ht, hz, hn, ← State.setFlag_setReg, State.setZN_setFlag hz hn, State.advance_setFlag] using
      Effect.load (s := s.setFlag f on) dst ea hm (haddr.trans h)
  | store src ea hm h =>
    have ht : flagTargets i.mnemonic = [] := by grind [flagTargets]
    simpa [ht, State.writeByte_setFlag, State.advance_setFlag] using
      Effect.store (s := s.setFlag f on) src ea hm (haddr.trans h)
  | logical op ea hm h =>
    have ht : flagTargets i.mnemonic = [.z, .n] := by grind [flagTargets]
    simpa [ht, hz, hn, ← State.setFlag_setReg, State.setZN_setFlag hz hn, State.advance_setFlag] using
      Effect.logical (s := s.setFlag f on) op ea hm (haddr.trans h)
  | shiftAccumulator op hm ho =>
    have ht : flagTargets i.mnemonic = [.c, .z, .n] := by grind [flagTargets]
    simpa [ht, hc, hz, hn, hcarry, ← State.setFlag_setReg, State.setCarry_setFlag hc, State.setZN_setFlag hz hn] using
      Effect.shiftAccumulator (s := s.setFlag f on) op hm ho
  | shiftMemory op ea hm ho h =>
    have ht : flagTargets i.mnemonic = [.c, .z, .n] := by grind [flagTargets]
    simpa [ht, hc, hz, hn, hcarry, State.writeByte_setFlag, State.setCarry_setFlag hc, State.setZN_setFlag hz hn,
      State.advance_setFlag] using Effect.shiftMemory (s := s.setFlag f on) op ea hm ho (haddr.trans h)
  | countRegister op dst hm =>
    have ht : flagTargets i.mnemonic = [.z, .n] := by grind [flagTargets]
    simpa [ht, hz, hn, ← State.setFlag_setReg, State.setZN_setFlag hz hn] using
      Effect.countRegister (s := s.setFlag f on) op dst hm
  | countMemory op ea hm h =>
    have ht : flagTargets i.mnemonic = [.z, .n] := by grind [flagTargets]
    simpa [ht, hz, hn, State.writeByte_setFlag, State.setZN_setFlag hz hn, State.advance_setFlag] using
      Effect.countMemory (s := s.setFlag f on) op ea hm (haddr.trans h)
  | compare src ea hm h =>
    have ht : flagTargets i.mnemonic = [.c, .z, .n] := by grind [flagTargets]
    simpa [ht, hc, hz, hn, State.setCarry_setFlag hc, State.setZN_setFlag hz hn, State.advance_setFlag] using
      Effect.compare (s := s.setFlag f on) src ea hm (haddr.trans h)
  | branch g taken b hm ho =>
    have ht : flagTargets i.mnemonic = [] := by grind [flagTargets]
    have hg : g ≠ f := by grind
    simpa [ht, Status.test_set, hg, State.setPc_setFlag] using Effect.branch (s := s.setFlag f on) g taken b hm ho
  | jump w hi =>
    subst hi
    simpa [flagTargets, Instr.mnemonic, State.setPc_setFlag] using Effect.jump (s := s.setFlag f on) w rfl
  | transfer src dst hm =>
    have ht : flagTargets i.mnemonic = [.z, .n] := by grind [flagTargets]
    simpa [ht, hz, hn, ← State.setFlag_setReg, State.setZN_setFlag hz hn] using
      Effect.transfer (s := s.setFlag f on) src dst hm
  | endProgram hi =>
    subst hi
    simpa [flagTargets, Instr.mnemonic, State.haltSuccess_setFlag] using Effect.endProgram (s := s.setFlag f on) rfl
  | noOperation hi =>
    subst hi
    simpa [flagTargets, Instr.mnemonic] using Effect.noOperation (s := s.setFlag f on) rfl
  | writeFlag g value hm =>
    have ht : flagTargets i.mnemonic = [g] := by grind [flagTargets]
    have := Effect.writeFlag (s := s.setFlag f on) g value hm
    by_cases e : f = g
    · subst e
      simpa [ht, State.setFlag_same] using this
    · simpa [ht, e, State.setFlag_comm e] using this

end Sys2Proof.Machine
end

section
/-! What a run keeps in the `named` profile. -/

namespace Sys2Proof.Machine

variable {i : Instr} {s t : State}

theorem Effect.config_eq (he : Effect i s t) : t.config = s.config := by
  cases he <;> simp

theorem wellFormed_of_decode {p : OpcodeProfile} {c : Byte} {bytes rest : List Byte}
    (h : decode p (c :: bytes) = .ok (i, rest)) : i.wellFormed p = true := by
  cases hl : lookup p c with
  | none => simp [decode_absent hl] at h
  | some row =>
    rw [decode_row hl] at h
    obtain ⟨hf, hp⟩ := lookup_some.mp hl
    obtain ⟨hrow, rfl⟩ := findRow_some hf
    obtain ⟨-, hmnemonic, -⟩ := assemble_encode hrow h
    exact wellFormed_of_row hrow hp hmnemonic

/-- What the loop fetches, the core's own profile populates (R52). -/
theorem wellFormed_of_fetchInstr (h : s.fetchInstr = .ok i) : i.wellFormed s.config.opcodeProfile = true := by
  unfold State.fetchInstr at h
  split at h
  · cases h
    exact wellFormed_of_decode ‹_›
  · cases h

/-- Y has no writer among the mnemonics of the `named` profile (R5, R14). -/
theorem registerTarget_ne_y_of_named (h : i.wellFormed .named = true) : registerTarget i ≠ some .y := by
  revert h
  cases hm : i.mnemonic <;> simp [Instr.wellFormed, registerTarget, Mnemonic.inNamed, hm]

/-- A `named` core whose Y is `y`. -/
def NamedWithY (y : Byte) (s : State) : Prop := s.config.opcodeProfile = .named ∧ s.y = y

theorem step_keeps_namedWithY {y : Byte} (hs : NamedWithY y s) (h : step s = .next t) : NamedWithY y t := by
  obtain ⟨hnamed, hy⟩ := hs
  obtain ⟨hr, ⟨i, hi, -⟩ | ⟨-, -, rfl⟩⟩ := step_cases h
  · rw [step_fetched hr hi] at h
    have he := effect_of_exec h
    have hw : i.wellFormed .named = true := hnamed ▸ wellFormed_of_fetchInstr hi
    exact ⟨by rw [he.config_eq]; exact hnamed, (he.reg_eq (registerTarget_ne_y_of_named hw)).trans hy⟩
  · exact ⟨hnamed, hy⟩

/-- What every step keeps, every bounded run keeps (R122). -/
theorem runFor_invariant {P : State → Prop} (hstep : ∀ s t, P s → step s = .next t → P t) (n : Nat) (s : State)
    (hs : P s) : P (State.runFor n s) := by
  induction n generalizing s with
  | zero => exact hs
  | succ n ih =>
    rw [State.runFor]
    split
    · exact ih _ (hstep _ _ hs ‹_›)
    · exact hs
    · exact hs

end Sys2Proof.Machine
end

section
/-! The statements of 10_state.md. -/

namespace Sys2Proof.Proofs

open Sys2Proof.Machine Sys2Proof.Claims

/-- Settles O32: each operation of the status unit, flag by flag. -/
theorem statusUnitOperations : Obligations.StatusUnitOperations :=
  ⟨Status.test_set, Status.setZN_eq_zn, fun _ _ => rfl⟩

/-- Settles O33: the packed layout bit by bit, and the two round trips through it. -/
theorem packedStatusLayout : Obligations.PackedStatusLayout :=
  ⟨fun p => ⟨p.pack_bits, p.unpack_pack⟩, fun _ => Status.pack_unpack⟩

/-- Settles O34: every effect of an instruction leaves the registers that are not its target, and commutes with an
update of a register that it does not read. -/
theorem registerReadersAndWriters : Obligations.RegisterReadersAndWriters := by
  intro r i s t h
  have he := effect_of_exec h
  simp only [Bool.eq_false_iff, ne_eq, writesRegister_iff_target]
  exact ⟨he.reg_eq, fun hr v => exec_of_effect (he.setReg (Bool.eq_false_iff.mpr hr) v)⟩

/-- Settles O35: an effect of an instruction writes no flag but those that R25's table lists for it. -/
theorem flagWriters : Obligations.FlagWriters := by
  intro f i s t h hf
  exact (effect_of_exec h).test_eq (by simp [← writesFlag_iff_target, hf])

/-- Settles O36: R25's table lists V and B nowhere, D and I for two instructions each, and every effect commutes with
an update of one of the four. -/
theorem unwiredFlagsAreNeverRead : Obligations.UnwiredFlagsAreNeverRead := by
  intro f i s t hf h
  have hkeep : writesFlag f i = false → t.p.test f = s.p.test f := flagWriters f i s t h
  refine ⟨?_, ?_, ?_, fun on => ?_⟩
  · rintro (rfl | rfl) <;> exact hkeep rfl
  · rintro rfl hcld hsed
    exact hkeep (by simp [writesFlag, hcld, hsed])
  · rintro rfl hcli hsei
    exact hkeep (by simp [writesFlag, hcli, hsei])
  · obtain ⟨hc, hz, hn⟩ : f ≠ .c ∧ f ≠ .z ∧ f ≠ .n := by rcases hf with rfl | rfl | rfl | rfl <;> decide
    simp only [writesFlag_iff_target]
    exact exec_of_effect ((effect_of_exec h).setFlag hc hz hn on)

/-- Settles O38, by the invariant that the profile is `named` and Y has its first value. -/
theorem namedProfileNeverWritesY : Obligations.NamedProfileNeverWritesY := by
  intro n s hs
  obtain ⟨-, hy⟩ : NamedWithY s.y (State.runFor n s) :=
    runFor_invariant (fun _ _ => step_keeps_namedWithY) n s ⟨hs, rfl⟩
  exact hy

end Sys2Proof.Proofs
end

/-! ## Memory (20_memory.md R29 to R48) -/

section
/-! What word accesses and slices read back as. -/

namespace Sys2Proof.Machine

theorem State.read16_toNat (s : State) (a : Word) : (s.read16 a).toNat = Claims.wordAt s a (a + 1) := by
  rw [State.read16, Memory.read16, concat_toNat, Claims.wordAt, Nat.add_comm, Nat.mul_comm]
  rfl

theorem Memory.read_write16_low {m : List Host.Cell} (hm : Memory.wf m = true) (a w : Word) :
    Memory.read (Memory.write16 m a w) a = lo w := by
  rw [Memory.write16, Memory.read_write_other (by bv_omega), Memory.read_write_same hm]

theorem Memory.read_write16_high {m : List Host.Cell} (hm : Memory.wf m = true) (a w : Word) :
    Memory.read (Memory.write16 m a w) (a + 1) = hi w :=
  Memory.read_write_same (Memory.wf_write hm a (lo w)) (a + 1) (hi w)

theorem Memory.read_write16_other {a c : Word} (hlow : c ≠ a) (hhigh : c ≠ a + 1) (m : List Host.Cell) (w : Word) :
    Memory.read (Memory.write16 m a w) c = Memory.read m c := by
  rw [Memory.write16, Memory.read_write_other hhigh, Memory.read_write_other hlow]

theorem Memory.read16_write16 {m : List Host.Cell} (hm : Memory.wf m = true) (a w : Word) :
    Memory.read16 (Memory.write16 m a w) a = w := by
  rw [Memory.read16, Memory.read_write16_low hm, Memory.read_write16_high hm, concat_hi_lo]

/-- Byte `c - a` of the slice at `a` stands at `c`, where the slice has one; the distance wraps as the copy does. -/
theorem Memory.read_writeBytes {bytes : List Byte} (hlen : bytes.length ≤ 65536) {m : List Host.Cell}
    (hm : Memory.wf m = true) (a c : Word) :
    Memory.read (Memory.writeBytes m a bytes) c = (bytes[(c - a).toNat]?).getD (Memory.read m c) := by
  induction bytes generalizing m a with
  | nil => rfl
  | cons b rest ih =>
    rw [List.length_cons] at hlen
    rw [Memory.writeBytes, ih (by omega) (Memory.wf_write hm a b)]
    by_cases hc : c = a
    · subst hc
      have hwrap : (c - (c + 1)).toNat = 65535 := by bv_omega
      rw [hwrap, List.getElem?_eq_none (by omega), BitVec.sub_self]
      exact Memory.read_write_same hm c b
    · have hnext : (c - a).toNat = (c - (a + 1)).toNat + 1 := by bv_omega
      rw [hnext, List.getElem?_cons_succ, Memory.read_write_other hc]

/-- A slice that stays below the top of memory does not wrap (R34). -/
theorem Memory.read_writeBytes_of_fits {start : Word} {bytes : List Byte} (hfit : start.toNat + bytes.length ≤ 65536)
    {m : List Host.Cell} (hm : Memory.wf m = true) (c : Word) :
    Memory.read (Memory.writeBytes m start bytes) c =
      if start.toNat ≤ c.toNat then (bytes[c.toNat - start.toNat]?).getD (Memory.read m c) else Memory.read m c := by
  rw [Memory.read_writeBytes (by omega) hm]
  split
  · rw [BitVec.toNat_sub_of_le (BitVec.le_def.mpr ‹_›)]
  · have hbelow : bytes.length ≤ (c - start).toNat := by bv_omega
    rw [List.getElem?_eq_none hbelow, Option.getD_none]

end Sys2Proof.Machine
end

section
/-! What an instruction, and with it a step, does to memory: it leaves it alone, or it makes the one write of
`State.storedByte`. -/

namespace Sys2Proof.Machine

open Sys2Proof.Claims

variable {i : Instr} {s t : State}

/-- What an instruction's effect can be on memory. -/
inductive MemoryEffect (i : Instr) (s t : State) : Prop where
  /-- it leaves memory alone -/
  | kept (hi : storesToMemory i = false)
      (hv : ∀ ea, resolve i.operand s = .ok ea → s.storedByte i.mnemonic (s.readByte ea) = none)
      (hmem : t.mem = s.mem)
  /-- it stores `v` at its effective address -/
  | stored (ea : Word) (v : Byte) (hi : storesToMemory i = true) (h : resolve i.operand s = .ok ea)
      (hv : s.storedByte i.mnemonic (s.readByte ea) = some v) (hmem : t.mem = Memory.write s.mem ea v)

/-- The storing forms have no Immediate mode, so their data byte is the one in memory. -/
theorem operandByte_of_stores (h : storesToMemory i = true) (s : State) (ea : Word) :
    s.operandByte i.operand ea = s.readByte ea := by
  revert h
  cases i <;> simp [storesToMemory, Instr.mnemonic, Instr.operand, Operand.mode, State.operandByte]

theorem storesToMemory_of_storedByte_none (h : ∀ old, s.storedByte i.mnemonic old = none) :
    storesToMemory i = false := by
  have hnone := h 0
  revert hnone
  cases hm : i.mnemonic <;> simp [State.storedByte, storesToMemory, hm]

/-- The stores, the counts in memory and the shifts of memory make the write of `storedByte`; every other effect
leaves memory alone. -/
theorem Effect.memoryEffect (he : Effect i s t) : MemoryEffect i s t := by
  cases he
  case store r ea hm h =>
    exact .stored ea (s.reg r) (by grind [storesToMemory]) h (by grind [State.storedByte, State.reg]) rfl
  case shiftMemory op ea hm ho h =>
    have hi : storesToMemory i = true := by grind [storesToMemory]
    exact .stored ea (op.result s.p.c (s.readByte ea)) hi h (by grind [State.storedByte])
      (by simp [operandByte_of_stores hi])
  case countMemory f ea hm h =>
    have hi : storesToMemory i = true := by grind [storesToMemory]
    have hv : s.storedByte i.mnemonic (s.readByte ea) = some (f (s.readByte ea)) := by
      rcases hm with ⟨hm, rfl⟩ | ⟨hm, rfl⟩ <;> rw [hm] <;> rfl
    exact .stored ea (f (s.readByte ea)) hi h hv (by simp [operandByte_of_stores hi])
  case shiftAccumulator op hm ho =>
    exact .kept (by grind [storesToMemory, Operand.mode]) (by simp [ho, resolve]) (by simp)
  case jump w hi | endProgram hi | noOperation hi =>
    subst hi
    exact .kept rfl (fun _ _ => rfl) rfl
  all_goals
    have hnone : ∀ old, s.storedByte i.mnemonic old = none := by grind [State.storedByte]
    exact .kept (storesToMemory_of_storedByte_none hnone) (fun _ _ => hnone _) (by simp)

/-- A step reached its state by an effect of the fetched instruction, or halted on an absent opcode byte. -/
theorem step_effect (h : step s = .next t) :
    s.run = .running ∧ ((∃ i, s.fetchInstr = .ok i ∧ Effect i s.afterOpcode t) ∨
      ((∃ e, s.fetchInstr = .error e) ∧ t = s.illegalOpcode)) := by
  obtain ⟨hr, ⟨i, hi, -⟩ | ⟨he, -, ht⟩⟩ := step_cases h
  · exact ⟨hr, .inl ⟨i, hi, effect_of_exec ((step_fetched hr hi).symm.trans h)⟩⟩
  · exact ⟨hr, .inr ⟨⟨_, he⟩, ht⟩⟩

theorem MemoryEffect.inv (h : MemoryEffect i s t) (hs : s.Inv) : t.Inv := by
  cases h with
  | kept hi hv hmem =>
    rw [State.Inv, hmem]
    exact hs
  | stored ea v hi hea hv hmem =>
    rw [State.Inv, hmem]
    exact Memory.wf_write hs ea v

theorem MemoryEffect.readByte_stored (h : MemoryEffect i s t) (hs : s.Inv) {ea : Word} {v : Byte}
    (hea : resolve i.operand s = .ok ea) (hv : s.storedByte i.mnemonic (s.readByte ea) = some v) :
    t.readByte ea = v := by
  cases h with
  | kept hi hnone hmem => simp [hnone ea hea] at hv
  | stored ea' v' hi hea' hv' hmem =>
    obtain rfl : ea' = ea := Except.ok.inj (hea'.symm.trans hea)
    obtain rfl : v' = v := Option.some.inj (hv'.symm.trans hv)
    rw [State.readByte, hmem, Memory.read_write_same hs]

end Sys2Proof.Machine
end

section
/-! The access events of a step (R48): groups of reads of the memory before it, then at most one write. -/

namespace Sys2Proof.Machine

open Sys2Proof.Claims

variable {i : Instr} {s t : State} {k : AccessKind} {n : Nat} {before after : List Host.Cell} {l l' : List Access}

/-- The accesses are of one group of reads, each of the byte that the memory holds. -/
def AreReads (before : List Host.Cell) (k : AccessKind) (l : List Access) : Prop :=
  k ≠ .dataWrite ∧ ∀ e ∈ l, e.kind = k ∧ e.value = Memory.read before e.addr

/-- The accesses, none of a group of R48 before group `n`, account for the change of memory from `before` to
`after`. -/
structure Accounts (before after : List Host.Cell) (n : Nat) (l : List Access) : Prop where
  ordered : l.Pairwise fun e f => accessGroup e.kind ≤ accessGroup f.kind
  applied : after = applyWrites before l
  oneWrite : (l.filter fun e => e.kind == .dataWrite).length ≤ 1
  reads : ∀ e ∈ l, e.kind ≠ .dataWrite → e.value = Memory.read before e.addr
  group : ∀ e ∈ l, n ≤ accessGroup e.kind

theorem AreReads.applyWrites_append (h : AreReads before k l) (m : List Host.Cell) (l' : List Access) :
    applyWrites m (l ++ l') = applyWrites m l' := by
  obtain ⟨hk, hl⟩ := h
  induction l with
  | nil => rfl
  | cons e rest ih =>
    obtain ⟨⟨he, -⟩, hrest⟩ := List.forall_mem_cons.mp hl
    have hne : e.kind ≠ .dataWrite := he ▸ hk
    rw [List.cons_append, applyWrites, if_neg hne, ih hrest]

/-- A group of reads may come before accesses of its own or of later groups. -/
theorem AreReads.append (h : AreReads before k l) (hl' : Accounts before after n l') (hn : accessGroup k ≤ n) :
    Accounts before after (accessGroup k) (l ++ l') := by
  have ⟨hk, hl⟩ := h
  have hgroup : ∀ e ∈ l, accessGroup e.kind = accessGroup k := fun e he => by rw [(hl e he).1]
  refine ⟨?ordered, ?applied, ?oneWrite, ?reads, ?group⟩
  case ordered =>
    have hl : l.Pairwise fun e f => accessGroup e.kind ≤ accessGroup f.kind :=
      List.pairwise_of_forall_mem_list fun e he f hf => by rw [hgroup e he, hgroup f hf]
    refine List.pairwise_append.mpr ⟨hl, hl'.ordered, fun e he f hf => ?_⟩
    rw [hgroup e he]
    exact hn.trans (hl'.group f hf)
  case applied => rw [h.applyWrites_append, hl'.applied]
  case oneWrite =>
    have hnone : l.filter (fun e => e.kind == .dataWrite) = [] :=
      List.filter_eq_nil_iff.mpr fun e he => by simp [(hl e he).1, hk]
    rw [List.filter_append, hnone, List.nil_append]
    exact hl'.oneWrite
  case reads =>
    exact List.forall_mem_append.mpr ⟨fun e he _ => (hl e he).2, hl'.reads⟩
  case group =>
    exact List.forall_mem_append.mpr ⟨fun e he => (hgroup e he).ge, fun e he => hn.trans (hl'.group e he)⟩

theorem Accounts.nil (before : List Host.Cell) (n : Nat) : Accounts before before n [] := by
  constructor <;> simp [applyWrites]

theorem Accounts.write (before : List Host.Cell) (a : Word) (v : Byte) :
    Accounts before (Memory.write before a v) 5 [⟨.dataWrite, a, v⟩] := by
  constructor <;> simp [applyWrites, accessGroup]

/-! ### The groups of one instruction -/

theorem opcodeFetch_areReads (s : State) (a : Word) : AreReads s.mem .opcodeFetch [s.readAccess .opcodeFetch a] := by
  simp [AreReads, State.readAccess, State.readByte]

theorem operandAccesses_areReads (s : State) (m : AddressMode) :
    AreReads s.mem .operandRead (s.operandAccesses m) := by
  cases m <;> simp [AreReads, State.operandAccesses, State.readAccess, State.readByte]

theorem pointerAccesses_areReads (s : State) (o : Operand) : AreReads s.mem .pointerRead (s.pointerAccesses o) := by
  cases o <;> simp [AreReads, State.pointerAccesses, State.readAccess, State.readByte]

/-- The data read alone, if it is made, is a group of reads. -/
theorem dataRead_areReads (s : State) (m : Mnemonic) (ea : Word) :
    AreReads s.mem .dataRead (if readsData m then [s.readAccess .dataRead ea] else []) := by
  split <;> simp [AreReads, State.readAccess, State.readByte]

theorem MemoryEffect.accounts_data (h : MemoryEffect i s t) : Accounts s.mem t.mem 4 (s.dataAccesses i) := by
  cases h with
  | kept hi hv hmem =>
    rw [hmem, State.dataAccesses]
    split
    · exact .nil _ _
    · rw [hv _ ‹_›]
      exact (dataRead_areReads s _ _).append (.nil _ 4) le_rfl
  | stored ea v hi hea hv hmem =>
    rw [hmem, State.dataAccesses, hea]
    dsimp only
    rw [hv]
    exact (dataRead_areReads s _ ea).append (.write _ ea v) (by decide)

theorem Effect.accounts (he : Effect i s t) :
    Accounts s.mem t.mem 2 (s.operandAccesses i.operand.mode ++ s.pointerAccesses i.operand ++ s.dataAccesses i) := by
  rw [List.append_assoc]
  refine (operandAccesses_areReads s _).append (n := 3) ?_ (by decide)
  exact (pointerAccesses_areReads s _).append he.memoryEffect.accounts_data (by decide)

theorem stepAccesses_fetched (hr : s.run = .running) (hi : s.fetchInstr = .ok i) :
    stepAccesses s = [s.readAccess .opcodeFetch s.pc] ++
      (s.afterOpcode.operandAccesses i.operand.mode ++ s.afterOpcode.pointerAccesses i.operand ++
        s.afterOpcode.dataAccesses i) := by
  simp [stepAccesses, hr, hi]

theorem stepAccesses_absent {e : DecodeError} (hr : s.run = .running) (he : s.fetchInstr = .error e) :
    stepAccesses s = [s.readAccess .opcodeFetch s.pc] := by
  simp [stepAccesses, hr, he]

theorem step_accounts (h : step s = .next t) : Accounts s.mem t.mem 1 (stepAccesses s) := by
  have hfetch := opcodeFetch_areReads s s.pc
  obtain ⟨hr, ⟨i, hi, he⟩ | ⟨⟨e, he⟩, rfl⟩⟩ := step_effect h
  · rw [stepAccesses_fetched hr hi]
    exact hfetch.append he.accounts (by decide)
  · rw [stepAccesses_absent hr he]
    exact hfetch.append (.nil _ 1) le_rfl

end Sys2Proof.Machine
end

section
/-! The statements of 20_memory.md. -/

namespace Sys2Proof.Proofs

open Sys2Proof.Machine Sys2Proof.Claims

/-- Settles O22: the step's one effect on memory is none or a byte write, and a byte write keeps the canonical
form. -/
theorem stepKeepsMemoryCanonical : Obligations.StepKeepsMemoryCanonical := by
  intro s t hs h
  obtain ⟨-, ⟨i, -, he⟩ | ⟨-, rfl⟩⟩ := step_effect h
  · exact he.memoryEffect.inv hs
  · exact hs

/-- Settles O20: byte by byte through the laws of `write16`. -/
theorem wordAccessIsLittleEndian : Obligations.WordAccessIsLittleEndian := by
  intro s a w hs
  refine ⟨s.read16_toNat a, Memory.read16_write16 hs a w, ?low, ?high, fun c hlow hhigh => ?other, rfl⟩
  case low => exact (congrArg BitVec.toNat (Memory.read_write16_low hs a w)).trans (lo_toNat w)
  case high => exact (congrArg BitVec.toNat (Memory.read_write16_high hs a w)).trans (hi_toNat w)
  case other => exact Memory.read_write16_other hlow hhigh s.mem w

/-- Settles O21: a canonical list is fixed by what it reads as. -/
theorem equalBytesEqualMemory : Obligations.EqualBytesEqualMemory :=
  fun _ _ hs ht h => Memory.ext_of_wf hs ht h

/-- Settles O25: a step's accesses are groups of reads in R48's order, and then the write of the instruction's memory
effect, if it has one. -/
theorem accessesAccountForMemory : Obligations.AccessesAccountForMemory := by
  intro s t h
  obtain ⟨ordered, applied, oneWrite, reads, -⟩ := step_accounts h
  exact ⟨ordered, applied, oneWrite, reads⟩

/-- Settles O26: the memory effect of a storing form is the write of that byte at that address, and a fetch reads
memory itself. -/
theorem storeIsSeenByTheNextFetch : Obligations.StoreIsSeenByTheNextFetch := by
  intro i s t ea v hs h hea hv
  have hread : t.readByte ea = v := (effect_of_exec h).memoryEffect.readByte_stored hs hea hv
  refine ⟨hread, ?_⟩
  rintro rfl
  exact congrArg some hread

/-- Settles O30: the copy loop, read back byte by byte, in a slice that does not wrap. -/
theorem sliceWrite : Obligations.SliceWrite := by
  intro s start bytes hs
  constructor
  · intro hfit
    exact ⟨_, if_pos hfit, rfl, Memory.read_writeBytes_of_fits hfit hs⟩
  · intro hover
    exact ⟨_, if_neg (Nat.not_le.mpr hover)⟩

/-- Settles O37: the two memory effects that an instruction can have. -/
theorem onlyTheStoredByteChanges : Obligations.OnlyTheStoredByteChanges := by
  intro i s t h
  cases (effect_of_exec h).memoryEffect with
  | kept hi hv hmem =>
    exact ⟨fun _ => ⟨hmem, State.readByte_of_mem hmem⟩, by simp [hi]⟩
  | stored ea v hi hea hv hmem =>
    have hother : ∀ c, c ≠ ea → t.readByte c = s.readByte c := fun c hc => by
      rw [State.readByte, hmem]
      exact Memory.read_write_other hc v
    exact ⟨by simp [hi], fun _ => ⟨ea, hea, hother⟩⟩

/-- Settles O19: a write reads back, and it is an update of the memory field alone. -/
theorem byteWriteChangesOneByte : Obligations.ByteWriteChangesOneByte :=
  fun _ a v hs => ⟨fun c => Memory.read_write hs a c v, rfl⟩

end Sys2Proof.Proofs
end

/-! ## Encoding (30_encoding.md R49 to R57) -/

section
/-! The decoder and the encoder as inverses, and what the table says of lengths and of byte values. -/

namespace Sys2Proof

variable {p : OpcodeProfile} {i : Instr} {bytes rest : List Byte}

/-- The two directions of the round trip in one: the decoder answers exactly the instructions that the profile
populates, from exactly their encodings. -/
theorem decode_eq_ok_iff :
    decode p bytes = .ok (i, rest) ↔ i.wellFormed p = true ∧ bytes = encode i ++ rest := by
  constructor
  · intro h
    cases bytes with
    | nil => cases h
    | cons c bs =>
      refine ⟨Machine.wellFormed_of_decode h, ?_⟩
      cases hl : lookup p c with
      | none => cases (decode_absent hl bs).symm.trans h
      | some r =>
        rw [decode_row hl] at h
        obtain ⟨hrow, rfl⟩ := findRow_some (lookup_some.mp hl).1
        exact (assemble_encode hrow h).1
  · rintro ⟨hw, rfl⟩
    obtain ⟨r, hr, hbuild⟩ := lookup_opcode hw
    exact (decode_row hr _).trans (hbuild rest)

theorem Descriptor.wellFormed_iff {d : Descriptor} :
    d.wellFormed = true ↔ ∃ f, d.mode.format = some f ∧ d.bytes = f.length := by
  unfold Descriptor.wellFormed
  cases d.mode.format <;> simp

theorem dispatchTable_wellFormed : ∀ r ∈ dispatchTable, r.desc.wellFormed = true := by
  decide

/-- An instruction's mode has a format, since its row's descriptor has one (R50). -/
theorem encode_length_eq_format_length (i : Instr) :
    ∃ f, i.operand.mode.format = some f ∧ (encode i).length = f.length := by
  obtain ⟨r, -, -, hmode, hbytes, -, hwf⟩ := Laws.RowAgrees.every i
  rw [encode_length, ← hmode, ← hbytes]
  exact Descriptor.wellFormed_iff.mp hwf

/-- Going to `extended` takes no row away (R52). -/
theorem lookup_extended_of_lookup {code : Byte} {r : TableRow} (h : lookup p code = some r) :
    lookup .extended code = some r :=
  lookup_some.mpr ⟨(lookup_some.mp h).1, rfl⟩

/-! ### How many byte values are populated -/

theorem dispatchTable_codes_nodup : (dispatchTable.map fun r => r.code).Nodup := by
  decide

/-- No byte value has two rows, so the search finds the row that stands in the table. -/
theorem findRow_code_of_mem {r : TableRow} (hr : r ∈ dispatchTable) : findRow r.code = some r := by
  cases hf : findRow r.code with
  | none => simpa using List.find?_eq_none.mp hf r hr
  | some r' =>
    obtain ⟨hr', hcode⟩ := findRow_some hf
    rw [List.inj_on_of_nodup_map dispatchTable_codes_nodup hr' hr hcode]

/-- The byte values that a profile populates. -/
def populatedCodes (p : OpcodeProfile) : List Byte :=
  (dispatchTable.filter fun r => r.populatedIn p).map fun r => r.code

theorem populatedCodes_nodup (p : OpcodeProfile) : (populatedCodes p).Nodup :=
  dispatchTable_codes_nodup.sublist (List.filter_sublist.map _)

theorem lookup_isSome_iff_mem_populatedCodes {c : Byte} : (lookup p c).isSome = true ↔ c ∈ populatedCodes p := by
  simp only [Option.isSome_iff_exists, lookup_some, populatedCodes, List.mem_map, List.mem_filter]
  constructor
  · rintro ⟨r, hf, hp⟩
    obtain ⟨hr, rfl⟩ := findRow_some hf
    exact ⟨r, ⟨hr, hp⟩, rfl⟩
  · rintro ⟨r, ⟨hr, hp⟩, rfl⟩
    exact ⟨r, findRow_code_of_mem hr, hp⟩

/-- Of the 256 byte values those with a row are the profile's own, each once. -/
theorem populated_range_perm (p : OpcodeProfile) :
    ((List.range 256).filter fun n => (lookup p (BitVec.ofNat 8 n)).isSome).Perm
      ((populatedCodes p).map BitVec.toNat) := by
  refine (List.perm_ext_iff_of_nodup (List.nodup_range.filter _)
    ((populatedCodes_nodup p).map fun _ _ => BitVec.eq_of_toNat_eq)).mpr fun n => ?_
  simp only [List.mem_filter, List.mem_range, lookup_isSome_iff_mem_populatedCodes, List.mem_map]
  constructor
  · rintro ⟨hn, hmem⟩
    exact ⟨_, hmem, (BitVec.toNat_ofNat n 8).trans (Nat.mod_eq_of_lt hn)⟩
  · rintro ⟨c, hmem, rfl⟩
    exact ⟨c.isLt, by simpa using hmem⟩

/-- The byte values that a profile leaves out are the rest of the 256 (R55). -/
theorem absent_length_add_populated_length (p : OpcodeProfile) :
    ((List.range 256).filter fun n => (lookup p (BitVec.ofNat 8 n)).isNone).length + (populatedCodes p).length =
      256 := by
  have hpop := (populated_range_perm p).length_eq
  rw [List.length_map] at hpop
  have hsplit := List.length_eq_length_filter_add (l := List.range 256)
    fun n => (lookup p (BitVec.ofNat 8 n)).isSome
  simp only [Option.not_isSome, List.length_range] at hsplit
  omega

end Sys2Proof
end

section
/-! The operand an instruction carries and the bytes that stand behind its opcode byte. -/

namespace Sys2Proof.Machine

open Sys2Proof.Claims

variable {i : Instr} {s : State}

/-- Reading a mode's operand bytes at `pc` gives back the operand whose encoding stands there (R51). -/
theorem operandAtPc_of_encoding (o : Operand)
    (h : ∀ k b, o.encoding[k]? = some b → s.readByte (s.pc + BitVec.ofNat 16 k) = b) :
    s.operandAtPc o.mode = o := by
  have hbyte : ∀ b rest, o.encoding = b :: rest → s.readByte s.pc = b := fun b rest ho => by
    simpa using h 0 b (by rw [ho]; rfl)
  have hword : ∀ w, o.encoding = [lo w, hi w] → s.read16 s.pc = w := fun w ho => by
    have hlow : s.readByte s.pc = lo w := hbyte _ _ ho
    have hhigh : s.readByte (s.pc + 1) = hi w := h 1 _ (by rw [ho]; rfl)
    calc s.read16 s.pc = concat (s.readByte (s.pc + 1)) (s.readByte s.pc) := rfl
      _ = w := by rw [hlow, hhigh, concat_hi_lo]
  cases o with
  | accumulator | implied | unresolved => rfl
  | immediate b | zeroPage b | zeroPageX b | zeroPageY b | indirectX b | indirectY b =>
    simp only [Operand.mode, State.operandAtPc, hbyte b [] rfl]
  | absolute w | absoluteX w | absoluteY w => simp only [Operand.mode, State.operandAtPc, hword w rfl]

/-- The data byte of an operand is read at its address, or is an Immediate byte, whose address is `pc` (R61). -/
theorem operandByte_eq_readByte {o : Operand} {ea : Word} (ho : s.operandAtPc o.mode = o)
    (hea : resolve o s = .ok ea) : s.operandByte o ea = s.readByte ea := by
  cases o with
  | immediate v =>
    cases hea
    exact (Operand.immediate.inj ho).symm
  | _ => rfl

/-- Behind the opcode byte of an instruction in memory stand its operand bytes. -/
theorem readByte_operand_of_standsAt (h : standsAt i s) (k : Nat) (b : Byte)
    (hb : i.operand.encoding[k]? = some b) : s.readByte (s.pc + 1 + BitVec.ofNat 16 k) = b := by
  have hnext : s.pc + 1 + BitVec.ofNat 16 k = s.pc + BitVec.ofNat 16 (k + 1) := by bv_omega
  rw [hnext]
  exact h (k + 1) b hb

theorem operandAtPc_of_standsAt (h : standsAt i s) :
    s.afterOpcode.operandAtPc i.operand.mode = i.operand :=
  operandAtPc_of_encoding i.operand (readByte_operand_of_standsAt h)

end Sys2Proof.Machine
end

section
/-! What the profile and the other parameters do to a step. -/

namespace Sys2Proof.Machine

open Sys2Proof.Claims

variable {i : Instr} {s t : State}

/-! ### The fetch (R52, R55) -/

/-- The loop fetches the instruction that its profile populates and whose bytes stand at `pc`. -/
theorem fetchInstr_eq_ok_iff :
    s.fetchInstr = .ok i ↔ i.wellFormed s.config.opcodeProfile = true ∧ encode i <+: s.fetchBytes := by
  have hdecode : s.fetchInstr = .ok i ↔ ∃ rest, decode s.config.opcodeProfile s.fetchBytes = .ok (i, rest) := by
    unfold State.fetchInstr
    cases decode s.config.opcodeProfile s.fetchBytes <;> simp [Prod.ext_iff]
  simp only [hdecode, decode_eq_ok_iff, exists_and_left, List.IsPrefix, eq_comm (b := s.fetchBytes)]

theorem fetchInstr_of_populated (h : populated s (s.readByte s.pc)) : ∃ i, s.fetchInstr = .ok i := by
  obtain hi | ⟨-, hnone⟩ := fetchInstr_cases s
  · exact hi
  · have hsome := (lookup_isSome_iff _ _).mpr h
    simp [hnone] at hsome

/-! ### The parameters -/

/-- The same state under other parameters. -/
def State.withConfig (s : State) (cfg : Config) : State := { s with config := cfg }

section
variable (s : State) (cfg : Config)

@[simp] theorem State.withConfig_a : (s.withConfig cfg).a = s.a := rfl
@[simp] theorem State.withConfig_p : (s.withConfig cfg).p = s.p := rfl
@[simp] theorem State.withConfig_pc : (s.withConfig cfg).pc = s.pc := rfl
@[simp] theorem State.withConfig_reg (r : Register) : (s.withConfig cfg).reg r = s.reg r := by cases r <;> rfl
@[simp] theorem State.withConfig_operandByte (o : Operand) (ea : Word) :
    (s.withConfig cfg).operandByte o ea = s.operandByte o ea := State.operandByte_congr rfl o ea

@[simp] theorem State.setReg_withConfig (r : Register) (v : Byte) :
    (s.withConfig cfg).setReg r v = (s.setReg r v).withConfig cfg := by cases r <;> rfl
@[simp] theorem State.setZN_withConfig (v : Byte) :
    (s.withConfig cfg).setZN v = (s.setZN v).withConfig cfg := rfl
@[simp] theorem State.setCarry_withConfig (on : Bool) :
    (s.withConfig cfg).setCarry on = (s.setCarry on).withConfig cfg := rfl
@[simp] theorem State.setFlag_withConfig (f : Flag) (on : Bool) :
    (s.withConfig cfg).setFlag f on = (s.setFlag f on).withConfig cfg := rfl
@[simp] theorem State.setPc_withConfig (w : Word) :
    (s.withConfig cfg).setPc w = (s.setPc w).withConfig cfg := rfl
@[simp] theorem State.advance_withConfig (n : Nat) :
    (s.withConfig cfg).advance n = (s.advance n).withConfig cfg := rfl
@[simp] theorem State.writeByte_withConfig (c : Word) (b : Byte) :
    (s.withConfig cfg).writeByte c b = (s.writeByte c b).withConfig cfg := rfl
@[simp] theorem State.haltSuccess_withConfig :
    (s.withConfig cfg).haltSuccess = s.haltSuccess.withConfig cfg := rfl

end

/-- Of the parameters the resolver reads the pointer wrap alone (R69). -/
theorem resolve_withConfig {cfg : Config} (h : cfg.indirectYPointerWrap = s.config.indirectYPointerWrap)
    (o : Operand) : resolve o (s.withConfig cfg) = resolve o s := by
  cases o with
  | indirectY b =>
    have hpointer : (s.withConfig cfg).indirectYPointer b = s.indirectYPointer b := by
      simp only [State.indirectYPointer, State.withConfig, h]
      rfl
    exact congrArg (fun w => Except.ok (w + zext16 s.y)) hpointer
  | _ => rfl

/-- Of the parameters a branch offset reads its signedness alone (R101). -/
theorem State.branchOffset_withConfig {cfg : Config} (h : cfg.branchOffsetSigned = s.config.branchOffsetSigned)
    (b : Byte) : (s.withConfig cfg).branchOffset b = s.branchOffset b := by
  simp only [State.branchOffset, State.withConfig, h]

/-- A branch is taken where its flag is as its mnemonic wants it (R102 to R107). -/
theorem branchTaken_of_flag {m : Mnemonic} {f : Flag} {on : Bool} (hm : (f, on, m) ∈
      [(.c, false, .bcc), (.c, true, .bcs), (.z, true, .beq), (.z, false, .bne), (.n, true, .bmi), (.n, false, .bpl)])
    (p : Status) : branchTaken p m = some (p.test f == on) := by
  simp only [List.mem_cons, Prod.mk.injEq, List.not_mem_nil, or_false] at hm
  rcases hm with ⟨rfl, rfl, rfl⟩ | ⟨rfl, rfl, rfl⟩ | ⟨rfl, rfl, rfl⟩ | ⟨rfl, rfl, rfl⟩ | ⟨rfl, rfl, rfl⟩ |
    ⟨rfl, rfl, rfl⟩ <;> simp [branchTaken, Status.test]

/-- An effect is the same under other parameters that give the same address and, where the instruction branches, the
same offset. -/
theorem Effect.withConfig (he : Effect i s t) {cfg : Config}
    (haddr : resolve i.operand (s.withConfig cfg) = resolve i.operand s)
    (hoffset : ∀ b, i.operand = .immediate b → branchTaken s.p i.mnemonic = some true →
      (s.withConfig cfg).branchOffset b = s.branchOffset b) :
    Effect i (s.withConfig cfg) (t.withConfig cfg) := by
  cases he with
  | load r ea hm h => simpa using Effect.load (s := s.withConfig cfg) r ea hm (haddr.trans h)
  | store r ea hm h => simpa using Effect.store (s := s.withConfig cfg) r ea hm (haddr.trans h)
  | logical f ea hm h => simpa using Effect.logical (s := s.withConfig cfg) f ea hm (haddr.trans h)
  | shiftAccumulator op hm ho => simpa using Effect.shiftAccumulator (s := s.withConfig cfg) op hm ho
  | shiftMemory op ea hm ho h => simpa using Effect.shiftMemory (s := s.withConfig cfg) op ea hm ho (haddr.trans h)
  | countRegister f r hm => simpa using Effect.countRegister (s := s.withConfig cfg) f r hm
  | countMemory f ea hm h => simpa using Effect.countMemory (s := s.withConfig cfg) f ea hm (haddr.trans h)
  | compare r ea hm h => simpa using Effect.compare (s := s.withConfig cfg) r ea hm (haddr.trans h)
  | branch f on b hm ho =>
    have := Effect.branch (s := s.withConfig cfg) f on b hm ho
    by_cases htaken : s.p.test f = on
    · have hb := hoffset b ho (by simp [branchTaken_of_flag hm, htaken])
      simpa [htaken, hb] using this
    · simpa [htaken] using this
  | jump w hi => exact .jump w hi
  | transfer src dst hm => simpa using Effect.transfer (s := s.withConfig cfg) src dst hm
  | endProgram hi => exact .endProgram hi
  | noOperation hi => exact .noOperation hi
  | writeFlag f on hm => exact .writeFlag f on hm

/-- A step that runs an instruction is the same under a profile that populates it too, where the other two parameters
that a step reads are the same. -/
theorem step_withConfig {cfg : Config} (hi : s.fetchInstr = .ok i) (hw : i.wellFormed cfg.opcodeProfile = true)
    (hwrap : cfg.indirectYPointerWrap = s.config.indirectYPointerWrap)
    (hsigned : cfg.branchOffsetSigned = s.config.branchOffsetSigned) (h : step s = .next t) :
    step (s.withConfig cfg) = .next (t.withConfig cfg) := by
  obtain ⟨hr, -⟩ := step_cases h
  have he : Effect i s.afterOpcode t := effect_of_exec ((step_fetched hr hi).symm.trans h)
  have hi' : (s.withConfig cfg).fetchInstr = .ok i :=
    fetchInstr_eq_ok_iff.mpr ⟨hw, (fetchInstr_eq_ok_iff.mp hi).2⟩
  have haddr : resolve i.operand (s.afterOpcode.withConfig cfg) = resolve i.operand s.afterOpcode :=
    resolve_withConfig (s := s.afterOpcode) hwrap i.operand
  calc step (s.withConfig cfg) = exec i (s.afterOpcode.withConfig cfg) := step_fetched hr hi'
    _ = .next (t.withConfig cfg) := exec_of_effect
      (he.withConfig haddr fun b _ _ => State.branchOffset_withConfig (s := s.afterOpcode) hsigned b)

end Sys2Proof.Machine
end

section
/-! The statements of 30_encoding.md. -/

namespace Sys2Proof.Proofs

open Sys2Proof.Machine Sys2Proof.Claims

/-- Settles O2: an instruction's own row is populated in every profile it is well-formed in, and builds it. -/
theorem decodeOfEncode : Obligations.DecodeOfEncode :=
  fun _ _ _ hw => decode_eq_ok_iff.mpr ⟨hw, rfl⟩

/-- Settles O3: what a row builds has the row's byte and the operand bytes as its encoding. -/
theorem encodeOfDecode : Obligations.EncodeOfDecode :=
  fun _ _ _ _ h => decode_eq_ok_iff.mp h

/-- Settles O12: the fetch finds the same instruction, and its effect reads no profile. -/
theorem extendedProfileExtendsNamed : Obligations.ExtendedProfileExtendsNamed := by
  intro s t _ hpop h
  obtain ⟨i, hi⟩ := fetchInstr_of_populated hpop
  exact step_withConfig hi rfl rfl rfl h

/-- Settles O18: the operand bytes behind the opcode byte are read back as the operand, and an Immediate byte is the
one at `pc`. -/
theorem carriedOperandIsTheOneInMemory : Obligations.CarriedOperandIsTheOneInMemory := by
  intro s i h
  have hoperand := operandAtPc_of_standsAt h
  exact ⟨hoperand, fun _ => operandByte_eq_readByte hoperand⟩

/-- Settles O1: each byte sequence is decoded by the table. -/
theorem writtenOpcodesDecode : Obligations.WrittenOpcodesDecode := by
  unfold Obligations.WrittenOpcodesDecode
  and_intros <;> rfl

/-- Settles O4: an instruction's length is its row's, and every row's descriptor is well-formed. -/
theorem encodingLengthFollowsMode : Obligations.EncodingLengthFollowsMode := by
  refine ⟨fun i => ⟨rfl, encode_length_eq_format_length i⟩, fun r hr => ?_⟩
  obtain ⟨f, hf, hlen⟩ := Descriptor.wellFormed_iff.mp (dispatchTable_wellFormed r hr)
  refine ⟨fun hmode => ?_, f, hf, hlen⟩
  rw [hmode] at hf
  cases hf

/-- Settles O5: the profiles populate 33 and 120 of the 256 byte values, each once, and the others are absent. -/
theorem populatedOpcodeCounts : Obligations.PopulatedOpcodeCounts := by
  have hnamed : (populatedCodes .named).length = 33 := by decide
  have hextended : (populatedCodes .extended).length = 120 := by decide
  refine ⟨dispatchTable_codes_nodup, ?_, ?_, fun _ _ => lookup_extended_of_lookup⟩
  · have := absent_length_add_populated_length .named
    omega
  · have := absent_length_add_populated_length .extended
    omega

end Sys2Proof.Proofs
end

/-! ## Addressing modes (40_addressing_modes.md R60 to R71) -/

section
/-! The sums and the pointers of the resolver as numbers. -/

namespace Sys2Proof.Machine

open Sys2Proof.Claims

theorem zext16_eq_ofNat (b : Byte) : zext16 b = BitVec.ofNat 16 b.toNat :=
  BitVec.eq_of_toNat_eq (by simp [zext16])

/-- A sum of bytes wraps before it is an address, so it stays in page 0 (R63, R64). -/
theorem zext16_add_toNat (b c : Byte) : (zext16 (b + c)).toNat = (b.toNat + c.toNat) % 256 := by
  rw [zext16_toNat, BitVec.toNat_add]

/-- An index is added to an address in 16 bits (R66, R67, R69). -/
theorem add_zext16_toNat (w : Word) (b : Byte) : (w + zext16 b).toNat = (w.toNat + b.toNat) % 65536 := by
  rw [BitVec.toNat_add, zext16_toNat]

/-- Both bytes of a zero-page pointer stand in page 0 (R11, R68). -/
theorem State.zpRead16_toNat (s : State) (z : Byte) :
    (s.zpRead16 z).toNat =
      wordAt s (BitVec.ofNat 16 z.toNat) (BitVec.ofNat 16 ((z.toNat + 1) % 256)) := by
  have hnext : BitVec.ofNat 16 ((z.toNat + 1) % 256) = zext16 (z + 1) := by
    rw [zext16_eq_ofNat, BitVec.toNat_add]
    rfl
  rw [hnext, ← zext16_eq_ofNat, State.zpRead16, Memory.zpRead16, concat_toNat, wordAt, Nat.add_comm, Nat.mul_comm]
  rfl

theorem State.indirectYPointer_page0 {s : State} (h : s.config.indirectYPointerWrap = .page0) (z : Byte) :
    s.indirectYPointer z = s.zpRead16 z := by
  rw [State.indirectYPointer, h]

theorem State.indirectYPointer_linear {s : State} (h : s.config.indirectYPointerWrap = .linear) (z : Byte) :
    s.indirectYPointer z = s.read16 (zext16 z) := by
  rw [State.indirectYPointer, h]

/-- The two reads of a pointer part only where the high byte is past the end of page 0 (R69). -/
theorem State.zpRead16_eq_read16 {z : Byte} (hz : z.toNat ≠ 255) (s : State) :
    s.zpRead16 z = s.read16 (zext16 z) := by
  have hnext : zext16 (z + 1) = zext16 z + 1 := by
    have := zext16_toNat z
    have := zext16_toNat (z + 1)
    bv_omega
  rw [State.zpRead16, Memory.zpRead16, hnext]
  rfl

theorem State.indirectYPointer_eq_read16 {z : Byte} (hz : z.toNat ≠ 255) (s : State) :
    s.indirectYPointer z = s.read16 (zext16 z) := by
  cases h : s.config.indirectYPointerWrap with
  | page0 => rw [State.indirectYPointer_page0 h, State.zpRead16_eq_read16 hz]
  | linear => exact State.indirectYPointer_linear h z

/-- Away from 0xFF no parameter is read by IndirectY (R69). -/
theorem resolve_indirectY_withConfig {z : Byte} (hz : z.toNat ≠ 255) (s : State) (cfg : Config) :
    resolve (.indirectY z) (s.withConfig cfg) = resolve (.indirectY z) s := by
  have hpointer : (s.withConfig cfg).indirectYPointer z = s.indirectYPointer z := by
    rw [State.indirectYPointer_eq_read16 hz, State.indirectYPointer_eq_read16 hz]
    rfl
  exact congrArg (fun w => Except.ok (w + zext16 s.y)) hpointer

end Sys2Proof.Machine
end

section
/-! Which instructions use ZeroPageY, which operands raise InvalidAddressingMode, and how an instruction can end. -/

namespace Sys2Proof.Machine

theorem mnemonic_of_zeroPageY {i : Instr} (h : i.operand.mode = .zeroPageY) :
    i.mnemonic = .ldx ∨ i.mnemonic = .stx := by
  revert h
  cases i <;> simp [Instr.mnemonic, Instr.operand, Operand.mode]

/-- A mode that carries no memory address raises the resolver's one condition (R70). -/
theorem resolve_addressless {o : Operand} (h : o.mode = .accumulator ∨ o.mode = .implied ∨ o.mode = .unresolved)
    (s : State) : resolve o s = .error .invalidAddressingMode := by
  cases o with
  | accumulator | implied | unresolved => rfl
  | _ => simp [Operand.mode] at h

/-- An instruction ends a run with Success or does not end it: none raises a fatal condition (R127). -/
theorem Effect.run_cases {i : Instr} {s t : State} (he : Effect i s t) :
    t.run = s.run ∨ t.run = .halted .success := by
  cases he with
  | endProgram hi => exact .inr rfl
  | _ => exact .inl (by simp)

end Sys2Proof.Machine
end

section
/-! The statements of 40_addressing_modes.md. -/

namespace Sys2Proof.Proofs

open Sys2Proof.Machine Sys2Proof.Claims

/-- Settles O14: each sum is made in 8 bits, and only LDX and STX have ZeroPageY rows, which `named` leaves out. -/
theorem zeroPageAddresses : Obligations.ZeroPageAddresses := by
  intro s
  refine ⟨⟨_, rfl, rfl⟩, ⟨_, rfl, zext16_toNat _⟩, ⟨_, rfl, zext16_add_toNat _ _⟩, ⟨_, rfl, zext16_add_toNat _ _⟩,
    fun i hi => ?only, ?used⟩
  case only =>
    have hm := mnemonic_of_zeroPageY hi
    refine ⟨hm, ?_⟩
    rcases hm with hm | hm <;> rw [Instr.wellFormed, hm] <;> rfl
  case used =>
    rintro m (rfl | rfl)
    · exact ⟨.ldxZeroPageY 0, rfl, rfl⟩
    · exact ⟨.stxZeroPageY 0, rfl, rfl⟩

/-- Settles O15: the operand word is read little-endian at `pc`, and an index is added to it in 16 bits. -/
theorem absoluteAddresses : Obligations.AbsoluteAddresses := by
  intro s
  rw [← s.read16_toNat]
  exact ⟨⟨_, rfl, rfl⟩, ⟨_, rfl, add_zext16_toNat _ _⟩, ⟨_, rfl, add_zext16_toNat _ _⟩⟩

/-- Settles O16: the pointer's two bytes by the rule of its read, which for IndirectY the parameter chooses. -/
theorem indirectAddresses : Obligations.IndirectAddresses := by
  intro s b
  refine ⟨⟨_, rfl, ?indirectX⟩, fun h => ⟨_, rfl, ?page0⟩, fun h => ⟨_, rfl, ?linear⟩, fun hb wrap => ?alike⟩
  case indirectX => rw [State.zpRead16_toNat, BitVec.toNat_add, Nat.mod_add_mod]
  case page0 => rw [add_zext16_toNat, State.indirectYPointer_page0 h, State.zpRead16_toNat]
  case linear =>
    rw [add_zext16_toNat, State.indirectYPointer_linear h, State.read16_toNat, zext16_eq_ofNat, BitVec.ofNat_add]
    rfl
  case alike => exact resolve_indirectY_withConfig hb s _

/-- Settles O17: a handler without an address answers Illegal at once, and no instruction's effect is such an
answer. -/
theorem invalidAddressingModeHasNoEffect : Obligations.InvalidAddressingModeHasNoEffect := by
  refine ⟨fun o s body h => ?raises, fun o s ha hi hu => ?answers, fun i s t hrun h => ?unreached⟩
  case raises =>
    have herr := resolve_addressless h s
    exact ⟨herr, by rw [withAddress_error herr]; rfl⟩
  case answers =>
    obtain hok | ⟨-, hmode⟩ := resolve_cases o s
    · exact hok
    · simp [ha, hi, hu] at hmode
  case unreached =>
    rcases (effect_of_exec h).run_cases with ht | ht <;> simp [ht, hrun]

end Sys2Proof.Proofs
end

/-! ## Loads, stores and register transfers (41_loads_stores_transfers.md R72 to R83) -/

section
/-! The rows of a mnemonic in the dispatch table are its encodings, whatever the mnemonic. -/

namespace Sys2Proof

variable {m : Mnemonic} {code : Byte} {mode : AddressMode}

/-- The opcode bytes and modes of a mnemonic's rows, in the table's order. -/
def tableRows (m : Mnemonic) : List (Byte × AddressMode) :=
  (dispatchTable.filter fun r => r.desc.mnemonic == m).map fun r => (r.code, r.desc.mode)

theorem mem_tableRows :
    (code, mode) ∈ tableRows m ↔ ∃ r ∈ dispatchTable, r.desc.mnemonic = m ∧ r.code = code ∧ r.desc.mode = mode := by
  simp [tableRows, and_assoc]

/-- Every row is some instruction's own row. -/
theorem exists_instr_of_row {r : TableRow} (hr : r ∈ dispatchTable) :
    ∃ i : Instr, i.mnemonic = r.desc.mnemonic ∧ i.operand.mode = r.desc.mode ∧ i.opcode = r.code := by
  have hbuilt : ∃ i rest, r.handler.assemble r.code [0, 0] = .ok (i, rest) := by
    cases r.handler <;> exact ⟨_, _, rfl⟩
  obtain ⟨i, rest, hi⟩ := hbuilt
  obtain ⟨hencode, hmnemonic, hmode⟩ := assemble_encode hr hi
  exact ⟨i, hmnemonic, hmode, (List.cons.inj hencode).1.symm⟩

theorem mem_tableRows_iff_exists_instr :
    (code, mode) ∈ tableRows m ↔ ∃ i : Instr, i.mnemonic = m ∧ i.operand.mode = mode ∧ i.opcode = code := by
  rw [mem_tableRows]
  constructor
  · rintro ⟨r, hr, rfl, rfl, rfl⟩
    exact exists_instr_of_row hr
  · rintro ⟨i, rfl, rfl, rfl⟩
    obtain ⟨r, hfind, hmnemonic, hmode, -⟩ := Laws.RowAgrees.every i
    obtain ⟨hr, hcode⟩ := findRow_some hfind
    exact ⟨r, hr, hmnemonic, hcode, hmode⟩

/-- The smaller of the profiles that populate a mnemonic (R5, R52). -/
def Mnemonic.profile (m : Mnemonic) : OpcodeProfile :=
  if m.inNamed then .named else .extended

theorem encodedAs_tableRows (m : Mnemonic) : Claims.encodedAs m m.profile (tableRows m) := by
  refine ⟨fun _ _ => mem_tableRows_iff_exists_instr, fun i hi => ?_⟩
  simp [Instr.wellFormed, hi, Mnemonic.profile]

end Sys2Proof
end

section
/-! What exec answers for a load, a store and a register transfer, as a whole next state. -/

namespace Sys2Proof.Machine

open Sys2Proof.Claims

variable {i : Instr} {s t : State} {ea : Word}

theorem State.setZN_eq_zn (s : State) (v : Byte) : s.setZN v = { s with p := zn s.p v } :=
  congrArg s.setStatus (s.p.setZN_eq_zn v)

/-- R72's last step: `pc` moves past the operand bytes that the mode takes. -/
theorem State.advance_operand (hpc : t.pc = s.pc) (i : Instr) :
    t.advance (i.operand.bytes - 1) = { t with pc := pastOperand s i } := by
  rw [State.advance, State.setPc, hpc, pastOperand, encode_length]

theorem exec_load {r : Register} (hm : (r, i.mnemonic) ∈ [(.a, .lda), (.x, .ldx), (.y, .ldy)])
    (hea : resolve i.operand s = .ok ea) :
    exec i s = .next { s.setReg r (s.operandByte i.operand ea) with
      p := zn s.p (s.operandByte i.operand ea), pc := pastOperand s i } := by
  rw [exec_of_effect (.load r ea hm hea), State.advance_operand (s := s) (by simp), State.setZN_eq_zn, State.setReg_p]

theorem exec_store {r : Register} (hm : (r, i.mnemonic) ∈ [(.a, .sta), (.x, .stx), (.y, .sty)])
    (hea : resolve i.operand s = .ok ea) :
    exec i s = .next { s with mem := Memory.write s.mem ea (s.reg r), pc := pastOperand s i } := by
  rw [exec_of_effect (.store r ea hm hea), State.advance_operand (s := s) (by simp), State.writeByte]

theorem exec_transfer {src dst : Register}
    (hm : (src, dst, i.mnemonic) ∈ [(.a, .x, .tax), (.a, .y, .tay), (.x, .a, .txa), (.y, .a, .tya)]) (s : State) :
    exec i s = .next { s.setReg dst (s.reg src) with p := zn s.p (s.reg src) } := by
  rw [exec_of_effect (.transfer src dst hm), State.setZN_eq_zn, State.setReg_p]

end Sys2Proof.Machine
end

section
/-! The statements of 41_loads_stores_transfers.md. -/

namespace Sys2Proof.Proofs

open Sys2Proof.Machine Sys2Proof.Claims

/-- Settles O40: the table's rows of LDA, and the load into A. -/
theorem loadAccumulator : Obligations.LoadAccumulator := by
  refine ⟨encodedAs_tableRows .lda, fun i s hm => ?_⟩
  obtain ⟨ea, hea⟩ := resolve_of_needsAddress (i := i) (by rw [hm]; rfl) s
  exact ⟨ea, hea, fun ho => operandByte_eq_readByte ho hea, exec_load (r := .a) (by simp [hm]) hea⟩

/-- Settles O41: the table's rows of LDX and LDY, and the load into X or Y. -/
theorem loadIndexRegisters : Obligations.LoadIndexRegisters := by
  refine ⟨encodedAs_tableRows .ldx, encodedAs_tableRows .ldy, fun i s hm => ?_⟩
  obtain ⟨ea, hea⟩ := resolve_of_needsAddress (i := i) (by rcases hm with hm | hm <;> rw [hm] <;> rfl) s
  exact ⟨ea, hea, fun ho => operandByte_eq_readByte ho hea,
    fun hx => exec_load (r := .x) (by simp [hx]) hea, fun hy => exec_load (r := .y) (by simp [hy]) hea⟩

/-- Settles O43: the table's rows of STA, STX and STY, and the store of A, X or Y. -/
theorem stores : Obligations.Stores := by
  refine ⟨encodedAs_tableRows .sta, encodedAs_tableRows .stx, encodedAs_tableRows .sty, fun i s hm => ?_⟩
  obtain ⟨ea, hea⟩ := resolve_of_needsAddress (i := i) (by rcases hm with hm | hm | hm <;> rw [hm] <;> rfl) s
  exact ⟨ea, hea, fun ha => exec_store (r := .a) (by simp [ha]) hea,
    fun hx => exec_store (r := .x) (by simp [hx]) hea, fun hy => exec_store (r := .y) (by simp [hy]) hea⟩

/-- Settles O42: the table's row of each transfer, and the copy from its source to its destination. -/
theorem registerTransfers : Obligations.RegisterTransfers := by
  refine ⟨encodedAs_tableRows .tax, encodedAs_tableRows .tay, encodedAs_tableRows .txa, encodedAs_tableRows .tya,
    fun s => ⟨?tax, ?tay, ?txa, ?tya⟩⟩
  case tax => exact exec_transfer (src := .a) (dst := .x) (by decide) s
  case tay => exact exec_transfer (src := .a) (dst := .y) (by decide) s
  case txa => exact exec_transfer (src := .x) (dst := .a) (by decide) s
  case tya => exact exec_transfer (src := .y) (dst := .a) (by decide) s

end Sys2Proof.Proofs
end

/-! ## Logic, shifts, counts and compares (42_alu.md R85 to R100) -/

section
/-! The arithmetic of a shift, a count and a compare: what the bit-vector forms are as numbers. -/

namespace Sys2Proof.Machine

theorem getLsbD_zero_eq_decide (v : Byte) : v.getLsbD 0 = decide (v.toNat % 2 = 1) := by
  rw [BitVec.getLsbD, Nat.testBit_zero]

/-! ### Shifts -/

theorem shiftLeft_one_eq_ofNat (v : Byte) : v <<< 1 = BitVec.ofNat 8 (2 * v.toNat) := by
  apply BitVec.eq_of_toNat_eq
  simp [Nat.shiftLeft_eq, Nat.mul_comm]

theorem ushiftRight_one_eq_ofNat (v : Byte) : v >>> 1 = BitVec.ofNat 8 (v.toNat / 2) := by
  have := v.isLt
  apply BitVec.eq_of_toNat_eq
  simp only [BitVec.toNat_ushiftRight, Nat.shiftRight_eq_div_pow, BitVec.toNat_ofNat]
  omega

/-- The carry enters a vacated bit, so it is added. -/
theorem shiftLeft_one_or_one_eq_ofNat (v : Byte) : v <<< 1 ||| 0x01 = BitVec.ofNat 8 (2 * v.toNat + 1) := by
  rw [BitVec.ofNat_add, ← shiftLeft_one_eq_ofNat]
  refine (BitVec.add_eq_or_of_and_eq_zero _ _ ?_).symm
  ext k hk
  interval_cases k <;> simp

theorem ushiftRight_one_or_128_eq_ofNat (v : Byte) : v >>> 1 ||| 0x80 = BitVec.ofNat 8 (v.toNat / 2 + 128) := by
  rw [BitVec.ofNat_add, ← ushiftRight_one_eq_ofNat]
  refine (BitVec.add_eq_or_of_and_eq_zero _ _ ?_).symm
  ext k hk
  interval_cases k <;> simp

/-- The result of a shift as a number, before it is cut to 8 bits. -/
def ShiftOp.value (op : ShiftOp) (carry : Bool) (v : Nat) : Nat :=
  match op with
  | .asl => 2 * v
  | .lsr => v / 2
  | .rol => 2 * v + carry.toNat
  | .ror => v / 2 + 128 * carry.toNat

/-- The bit that a shift moves out of a number below 256: bit 7 to the left, bit 0 to the right. -/
def ShiftOp.bitOut (op : ShiftOp) (v : Nat) : Bool :=
  match op with
  | .asl | .rol => decide (128 ≤ v)
  | .lsr | .ror => decide (v % 2 = 1)

theorem ShiftOp.result_eq_ofNat (op : ShiftOp) (carry : Bool) (v : Byte) :
    op.result carry v = BitVec.ofNat 8 (op.value carry v.toNat) := by
  cases op with
  | asl => exact shiftLeft_one_eq_ofNat v
  | lsr => exact ushiftRight_one_eq_ofNat v
  | rol =>
    cases carry with
    | false => exact BitVec.or_zero.trans (shiftLeft_one_eq_ofNat v)
    | true => exact shiftLeft_one_or_one_eq_ofNat v
  | ror =>
    cases carry with
    | false => exact BitVec.or_zero.trans (ushiftRight_one_eq_ofNat v)
    | true => exact ushiftRight_one_or_128_eq_ofNat v

theorem ShiftOp.carryOut_eq_bitOut (op : ShiftOp) (v : Byte) : op.carryOut v = op.bitOut v.toNat := by
  cases op with
  | asl | rol => exact getLsbD_seven v
  | lsr | ror => exact getLsbD_zero_eq_decide v

/-! ### Counts and compares -/

theorem increment_eq_ofNat (v : Byte) : increment v = BitVec.ofNat 8 (v.toNat + 1) := by
  rw [BitVec.ofNat_add, BitVec.ofNat_toNat, BitVec.setWidth_eq]
  rfl

theorem decrement_eq_ofNat (v : Byte) : decrement v = BitVec.ofNat 8 (v.toNat + 255) := by
  rw [BitVec.ofNat_add, BitVec.ofNat_toNat, BitVec.setWidth_eq, decrement, BitVec.sub_eq_add_neg]
  rfl

theorem sub_eq_ofNat (a b : Byte) : a - b = BitVec.ofNat 8 (a.toNat + 256 - b.toNat) := by
  have := b.isLt
  apply BitVec.eq_of_toNat_eq
  rw [BitVec.toNat_sub, BitVec.toNat_ofNat]
  congr 1
  omega

end Sys2Proof.Machine
end

section
/-! What exec answers for each form of 42_alu.md, as a whole next state. -/

namespace Sys2Proof.Machine

open Sys2Proof.Claims

variable {i : Instr} {s : State} {ea : Word}

theorem State.setZN_setCarry_eq_czn (s : State) (c : Bool) (v : Byte) :
    (s.setCarry c).setZN v = { s with p := czn s.p c v } := by
  rw [State.setZN_eq_zn]
  rfl

theorem exec_logical {f : Byte → Byte → Byte}
    (hm : (i.mnemonic = .and ∧ f = (· &&& ·)) ∨ (i.mnemonic = .ora ∧ f = (· ||| ·)) ∨
      (i.mnemonic = .eor ∧ f = (· ^^^ ·)))
    (hea : resolve i.operand s = .ok ea) :
    exec i s = .next { s with
      a := f s.a (s.operandByte i.operand ea), p := zn s.p (f s.a (s.operandByte i.operand ea)),
      pc := pastOperand s i } := by
  rw [exec_of_effect (.logical f ea hm hea), State.advance_operand (s := s) (by simp), State.setZN_eq_zn,
    State.setReg_p, State.setReg]

/-! ### Shifts and rotates (R88 to R91) -/

/-- The mnemonic of R88 to R91 whose handler makes the shift. -/
def ShiftOp.mnemonic : ShiftOp → Mnemonic
  | .asl => .asl
  | .lsr => .lsr
  | .rol => .rol
  | .ror => .ror

/-- The shift's one row without an address. -/
def ShiftOp.accumulatorForm : ShiftOp → Instr
  | .asl => .aslAccumulator
  | .lsr => .lsrAccumulator
  | .rol => .rolAccumulator
  | .ror => .rorAccumulator

theorem ShiftOp.mem_of_mnemonic {op : ShiftOp} (hm : i.mnemonic = op.mnemonic) :
    (op, i.mnemonic) ∈ [(.asl, .asl), (.lsr, .lsr), (.rol, .rol), (.ror, .ror)] := by
  rw [hm]
  cases op <;> decide

theorem ShiftOp.eq_accumulatorForm {op : ShiftOp} (hm : i.mnemonic = op.mnemonic)
    (ho : i.operand.mode = .accumulator) : i = op.accumulatorForm := by
  cases i <;> cases ho
  all_goals cases op <;> trivial

theorem ShiftOp.resolve_of_mnemonic {op : ShiftOp} (hm : i.mnemonic = op.mnemonic)
    (ho : i.operand.mode ≠ .accumulator) (s : State) : ∃ ea, resolve i.operand s = .ok ea := by
  obtain hacc | ⟨-, hea⟩ := resolve_of_shift (i := i) (by cases op <;> simp [hm, ShiftOp.mnemonic]) s
  · exact absurd (congrArg Operand.mode hacc) ho
  · exact hea

theorem exec_shiftAccumulator (op : ShiftOp) (s : State) :
    exec op.accumulatorForm s = .next { s with
      a := BitVec.ofNat 8 (op.value s.p.c s.a.toNat),
      p := czn s.p (op.bitOut s.a.toNat) (BitVec.ofNat 8 (op.value s.p.c s.a.toNat)) } := by
  rw [exec_of_effect (.shiftAccumulator op (by cases op <;> decide) (by cases op <;> rfl)), State.setZN_setReg,
    State.setZN_setCarry_eq_czn, State.setReg, op.result_eq_ofNat, op.carryOut_eq_bitOut]

theorem exec_shiftMemory {op : ShiftOp} (hm : i.mnemonic = op.mnemonic) (hi : i ≠ op.accumulatorForm) (s : State) :
    ∃ ea, resolve i.operand s = .ok ea ∧ exec i s = .next { s with
      mem := Memory.write s.mem ea (BitVec.ofNat 8 (op.value s.p.c (s.readByte ea).toNat)),
      p := czn s.p (op.bitOut (s.readByte ea).toNat) (BitVec.ofNat 8 (op.value s.p.c (s.readByte ea).toNat)),
      pc := pastOperand s i } := by
  have ho : i.operand.mode ≠ .accumulator := fun hacc => hi (op.eq_accumulatorForm hm hacc)
  obtain ⟨ea, hea⟩ := op.resolve_of_mnemonic hm ho s
  have hstores : storesToMemory i = true := by
    cases op <;> simp [storesToMemory, hm, ho, ShiftOp.mnemonic]
  refine ⟨ea, hea, ?_⟩
  rw [exec_of_effect (.shiftMemory op ea (op.mem_of_mnemonic hm) ho hea), State.advance_operand (s := s) (by simp),
    State.setZN_setCarry_eq_czn, operandByte_of_stores hstores, op.result_eq_ofNat, op.carryOut_eq_bitOut,
    State.writeByte]

/-! ### Counts (R92 to R97) -/

theorem exec_countRegister {f : Byte → Byte} {r : Register} {v : Byte}
    (hm : (i.mnemonic = .inx ∧ r = .x ∧ f = increment) ∨ (i.mnemonic = .iny ∧ r = .y ∧ f = increment) ∨
      (i.mnemonic = .dex ∧ r = .x ∧ f = decrement) ∨ (i.mnemonic = .dey ∧ r = .y ∧ f = decrement))
    (hv : f (s.reg r) = v) :
    exec i s = .next { s.setReg r v with p := zn s.p v } := by
  rw [exec_of_effect (.countRegister f r hm), hv, State.setZN_eq_zn, State.setReg_p]

theorem exec_countMemory {f : Byte → Byte}
    (hm : (i.mnemonic = .inc ∧ f = increment) ∨ (i.mnemonic = .dec ∧ f = decrement))
    (hea : resolve i.operand s = .ok ea) :
    exec i s = .next { s with
      mem := Memory.write s.mem ea (f (s.readByte ea)), p := zn s.p (f (s.readByte ea)), pc := pastOperand s i } := by
  have hstores : storesToMemory i = true := by
    rcases hm with ⟨hm, -⟩ | ⟨hm, -⟩ <;> simp [storesToMemory, hm]
  rw [exec_of_effect (.countMemory f ea hm hea), State.advance_operand (s := s) (by simp), State.setZN_eq_zn,
    operandByte_of_stores hstores, State.writeByte]

/-! ### Compares (R98 to R100) -/

theorem exec_compare {r : Register} (hm : (r, i.mnemonic) ∈ [(.a, .cmp), (.x, .cpx), (.y, .cpy)])
    (hea : resolve i.operand s = .ok ea) :
    exec i s = .next { s with
      p := czn s.p (decide ((s.operandByte i.operand ea).toNat ≤ (s.reg r).toNat))
        (BitVec.ofNat 8 ((s.reg r).toNat + 256 - (s.operandByte i.operand ea).toNat)),
      pc := pastOperand s i } := by
  rw [exec_of_effect (.compare r ea hm hea), State.advance_operand (s := s) (by simp), State.setZN_setCarry_eq_czn,
    sub_eq_ofNat, BitVec.ule]

end Sys2Proof.Machine
end

section
/-! The statements of 42_alu.md. -/

namespace Sys2Proof.Proofs

open Sys2Proof.Machine Sys2Proof.Claims

/-- Settles O44: the table's rows of AND, ORA and EOR, and each mnemonic's own combination into A. -/
theorem logicalOperations : Obligations.LogicalOperations := by
  refine ⟨encodedAs_tableRows .and, encodedAs_tableRows .ora, encodedAs_tableRows .eor, fun i s hm => ?_⟩
  obtain ⟨ea, hea⟩ := resolve_of_needsAddress (i := i) (by rcases hm with hm | hm | hm <;> rw [hm] <;> rfl) s
  have hread := fun ho => operandByte_eq_readByte (s := s) ho hea
  rcases hm with hm | hm | hm
  · exact ⟨ea, _, hea, exec_logical (.inl ⟨hm, rfl⟩) hea, hread, by simp [hm]⟩
  · exact ⟨ea, _, hea, exec_logical (.inr (.inl ⟨hm, rfl⟩)) hea, hread, by simp [hm]⟩
  · exact ⟨ea, _, hea, exec_logical (.inr (.inr ⟨hm, rfl⟩)) hea, hread, by simp [hm]⟩

/-- Settles O45: the table's rows of ASL, and the shift in A and at the address; its `value` is twice the operand and
its `bitOut` bit 7. -/
theorem arithmeticShiftLeft : Obligations.ArithmeticShiftLeft :=
  ⟨encodedAs_tableRows .asl, fun s =>
    ⟨exec_shiftAccumulator .asl s, fun _ hm hi => exec_shiftMemory (op := .asl) hm hi s⟩⟩

/-- Settles O46: the table's rows of LSR, and the shift in A and at the address; its `value` is half the operand and
its `bitOut` bit 0. -/
theorem logicalShiftRight : Obligations.LogicalShiftRight :=
  ⟨encodedAs_tableRows .lsr, fun s =>
    ⟨exec_shiftAccumulator .lsr s, fun _ hm hi => exec_shiftMemory (op := .lsr) hm hi s⟩⟩

/-- Settles O47: the table's rows of ROL and ROR, and each rotate in A and at the address; the old Carry is the second
term of its `value`. -/
theorem rotatesThroughCarry : Obligations.RotatesThroughCarry :=
  ⟨encodedAs_tableRows .rol, encodedAs_tableRows .ror, fun s =>
    ⟨exec_shiftAccumulator .rol s, exec_shiftAccumulator .ror s,
      fun _ hm hi => exec_shiftMemory (op := .rol) hm hi s, fun _ hm hi => exec_shiftMemory (op := .ror) hm hi s⟩⟩

/-- Settles O48: the table's row of each count, and the count in its register as a sum modulo 256. -/
theorem registerCounts : Obligations.RegisterCounts := by
  refine ⟨encodedAs_tableRows .inx, encodedAs_tableRows .iny, encodedAs_tableRows .dex, encodedAs_tableRows .dey,
    fun s => ⟨?inx, ?iny, ?dex, ?dey⟩⟩
  case inx => exact exec_countRegister (r := .x) (by simp [Instr.mnemonic]) (increment_eq_ofNat s.x)
  case iny => exact exec_countRegister (r := .y) (by simp [Instr.mnemonic]) (increment_eq_ofNat s.y)
  case dex => exact exec_countRegister (r := .x) (by simp [Instr.mnemonic]) (decrement_eq_ofNat s.x)
  case dey => exact exec_countRegister (r := .y) (by simp [Instr.mnemonic]) (decrement_eq_ofNat s.y)

/-- Settles O49: the table's rows of INC and DEC, and the count of the byte at the address. -/
theorem memoryCounts : Obligations.MemoryCounts := by
  refine ⟨encodedAs_tableRows .inc, encodedAs_tableRows .dec, fun i s hm => ?_⟩
  obtain ⟨ea, hea⟩ := resolve_of_needsAddress (i := i) (by rcases hm with hm | hm <;> rw [hm] <;> rfl) s
  rcases hm with hm | hm
  · exact ⟨ea, _, hea, exec_countMemory (.inl ⟨hm, rfl⟩) hea, by simp [hm, increment_eq_ofNat]⟩
  · exact ⟨ea, _, hea, exec_countMemory (.inr ⟨hm, rfl⟩) hea, by simp [hm, decrement_eq_ofNat]⟩

/-- Settles O50: the table's rows of CMP, CPX and CPY, and the compare with A, X or Y. -/
theorem compares : Obligations.Compares := by
  refine ⟨encodedAs_tableRows .cmp, encodedAs_tableRows .cpx, encodedAs_tableRows .cpy, fun i s reg hm => ?_⟩
  obtain ⟨ea, hea⟩ := resolve_of_needsAddress (i := i)
    (by rcases hm with ⟨hm, -⟩ | ⟨hm, -⟩ | ⟨hm, -⟩ <;> rw [hm] <;> rfl) s
  have hread := fun ho => congrArg BitVec.toNat (operandByte_eq_readByte (s := s) ho hea)
  rcases hm with ⟨hm, rfl⟩ | ⟨hm, rfl⟩ | ⟨hm, rfl⟩
  · exact ⟨ea, hea, hread, exec_compare (r := .a) (by simp [hm]) hea⟩
  · exact ⟨ea, hea, hread, exec_compare (r := .x) (by simp [hm]) hea⟩
  · exact ⟨ea, hea, hread, exec_compare (r := .y) (by simp [hm]) hea⟩

end Sys2Proof.Proofs
end

/-! ## Branches, jump, terminator, no-operation and flag instructions (43_control_and_system.md R101 to R116) -/

section
/-! What exec answers for each form of 43_control_and_system.md, as a whole next state. -/

namespace Sys2Proof.Machine

open Sys2Proof.Claims

/-! ### Branches (R101 to R107) -/

theorem State.branchOffset_eq_ofNat (s : State) (b : Byte) :
    s.branchOffset b =
      BitVec.ofNat 16 (b.toNat + if s.config.branchOffsetSigned ∧ 128 ≤ b.toNat then 0xFF00 else 0) := by
  have := b.isLt
  apply BitVec.eq_of_toNat_eq
  rw [State.branchOffset]
  cases s.config.branchOffsetSigned with
  | false => simp [zext16]
  | true =>
    simp only [if_true, true_and, sext16_toNat, BitVec.toNat_ofNat]
    split <;> split <;> omega

/-- R101's target: the offset is added to the address after the branch, modulo 65536. -/
theorem State.add_branchOffset (s : State) (next : Word) (b : Byte) :
    next + s.branchOffset b = branchTarget s next b := by
  rw [s.branchOffset_eq_ofNat, branchTarget, Nat.add_assoc, BitVec.ofNat_add next.toNat, BitVec.ofNat_toNat,
    BitVec.setWidth_eq]

theorem exec_branch {i : Instr} {f : Flag} {on : Bool} {b : Byte}
    (hm : (f, on, i.mnemonic) ∈
      [(.c, false, .bcc), (.c, true, .bcs), (.z, true, .beq), (.z, false, .bne), (.n, true, .bmi), (.n, false, .bpl)])
    (ho : i.operand = .immediate b) (s : State) :
    exec i s = .next { s with pc := if s.p.test f == on then branchTarget s (s.pc + 1) b else s.pc + 1 } := by
  rw [exec_of_effect (.branch f on b hm ho), s.add_branchOffset, State.setPc]
  simp only [beq_iff_eq]

/-! ### The flag instructions (R111 to R116) -/

theorem exec_writeFlag {i : Instr} (f : Flag) (on : Bool)
    (hm : (f, on, i.mnemonic) ∈
      [(.c, false, .clc), (.c, true, .sec), (.i, false, .cli), (.i, true, .sei), (.d, false, .cld), (.d, true, .sed)])
    (s : State) : exec i s = .next { s with p := s.p.set f on } :=
  exec_of_effect (.writeFlag f on hm)

end Sys2Proof.Machine
end

section
/-! No instruction has a byte that the dispatch table lists nowhere. -/

namespace Sys2Proof

theorem Instr.opcode_ne_of_findRow_none {code : Byte} (h : findRow code = none) (i : Instr) : i.opcode ≠ code := by
  rintro rfl
  obtain ⟨r, hr, -⟩ := Laws.RowAgrees.every i
  simp [h] at hr

end Sys2Proof
end

section
/-! The statements of 43_control_and_system.md. -/

namespace Sys2Proof.Proofs

open Sys2Proof.Machine Sys2Proof.Claims

/-- Settles O51: the table's row of each branch, and the branch on its flag to R101's target. -/
theorem conditionalBranches : Obligations.ConditionalBranches := by
  refine ⟨encodedAs_tableRows .bcc, encodedAs_tableRows .bcs, encodedAs_tableRows .beq, encodedAs_tableRows .bne,
    encodedAs_tableRows .bmi, encodedAs_tableRows .bpl, fun s b => ⟨?bcc, ?bcs, ?beq, ?bne, ?bmi, ?bpl⟩⟩
  case bcc => exact exec_branch (f := .c) (by simp [Instr.mnemonic]) rfl s
  case bcs => exact exec_branch (f := .c) (by simp [Instr.mnemonic]) rfl s
  case beq => exact exec_branch (f := .z) (by simp [Instr.mnemonic]) rfl s
  case bne => exact exec_branch (f := .z) (by simp [Instr.mnemonic]) rfl s
  case bmi => exact exec_branch (f := .n) (by simp [Instr.mnemonic]) rfl s
  case bpl => exact exec_branch (f := .n) (by simp [Instr.mnemonic]) rfl s

/-- Settles O52: the table's one row of JMP, no row of 0x6C, and the jump to the operand word. -/
theorem jumpAbsolute : Obligations.JumpAbsolute :=
  ⟨encodedAs_tableRows .jmp, Instr.opcode_ne_of_findRow_none rfl, fun _ w => exec_of_effect (.jump w rfl)⟩

/-- Settles O53: the table's row of BRK, and the end of the program as its one effect. -/
theorem breakEndsTheRun : Obligations.BreakEndsTheRun :=
  ⟨encodedAs_tableRows .brk, fun _ => exec_of_effect (.endProgram rfl)⟩

/-- Settles O54: the table's row of each instruction, no effect of NOP, and each flag instruction's one write. -/
theorem noOperationAndFlagInstructions : Obligations.NoOperationAndFlagInstructions := by
  refine ⟨encodedAs_tableRows .nop, encodedAs_tableRows .clc, encodedAs_tableRows .sec, encodedAs_tableRows .cli,
    encodedAs_tableRows .sei, encodedAs_tableRows .cld, encodedAs_tableRows .sed,
    fun s => ⟨?nop, ?clc, ?sec, ?cli, ?sei, ?cld, ?sed⟩⟩
  case nop => exact exec_of_effect (.noOperation rfl)
  case clc => exact exec_writeFlag .c false (by decide) s
  case sec => exact exec_writeFlag .c true (by decide) s
  case cli => exact exec_writeFlag .i false (by decide) s
  case sei => exact exec_writeFlag .i true (by decide) s
  case cld => exact exec_writeFlag .d false (by decide) s
  case sed => exact exec_writeFlag .d true (by decide) s

end Sys2Proof.Proofs
end

/-! ## The execution loop (44_execution_loop.md R117 to R124) -/

section
/-! What the loop fetches at `pc`: an instruction whose bytes stand there, a placed table word, or nothing. -/

namespace Sys2Proof.Machine

open Sys2Proof.Claims

variable {i : Instr} {s : State}

/-! ### Bytes in memory -/

theorem fetchBytes_getElem? {k : Nat} (hk : k < 3) (s : State) :
    s.fetchBytes[k]? = some (s.readByte (s.pc + BitVec.ofNat 16 k)) := by
  interval_cases k
  · exact congrArg (fun a => some (s.readByte a)) (BitVec.add_zero s.pc).symm
  · rfl
  · rfl

theorem encode_length_le_three (i : Instr) : (encode i).length ≤ 3 := by
  obtain ⟨f, -, hlen⟩ := encode_length_eq_format_length i
  rw [hlen]
  cases f <;> decide

theorem encode_isPrefix_fetchBytes (h : standsAt i s) : encode i <+: s.fetchBytes := by
  refine List.prefix_iff_getElem?.mpr fun k hk => ?_
  rw [fetchBytes_getElem? (hk.trans_le (encode_length_le_three i)), h k _ (List.getElem?_eq_getElem hk)]

theorem fetchInstr_of_standsAt (hw : i.wellFormed s.config.opcodeProfile = true) (h : standsAt i s) :
    s.fetchInstr = .ok i :=
  fetchInstr_eq_ok_iff.mpr ⟨hw, encode_isPrefix_fetchBytes h⟩

theorem step_of_standsAt (hr : s.run = .running) (hw : i.wellFormed s.config.opcodeProfile = true)
    (h : standsAt i s) : step s = exec i s.afterOpcode :=
  step_fetched hr (fetchInstr_of_standsAt hw h)

/-! ### The opcode byte (R52, R55) -/

theorem opcode_of_fetchInstr (h : s.fetchInstr = .ok i) : i.opcode = s.readByte s.pc := by
  obtain ⟨-, rest, hbytes⟩ := fetchInstr_eq_ok_iff.mp h
  exact (List.cons.inj hbytes).1

theorem populated_of_fetchInstr (h : s.fetchInstr = .ok i) : populated s (s.readByte s.pc) :=
  ⟨i, wellFormed_of_fetchInstr h, opcode_of_fetchInstr h⟩

theorem step_of_not_populated (hr : s.run = .running) (h : ¬ populated s (s.readByte s.pc)) :
    step s = .next s.illegalOpcode := by
  obtain ⟨i, hi⟩ | ⟨he, -⟩ := fetchInstr_cases s
  · exact absurd (populated_of_fetchInstr hi) h
  · exact step_absent hr he

/-- BRK's byte has an instruction in both profiles (R53). -/
theorem populated_zero (s : State) : populated s 0#8 :=
  ⟨.brk, by cases s.config.opcodeProfile <;> rfl, rfl⟩

/-! ### A placed table word -/

/-- An instruction is well-formed wherever its opcode byte has a row: no other mnemonic shares the byte. -/
theorem wellFormed_of_lookup {p : OpcodeProfile} {r : TableRow} (h : lookup p i.opcode = some r) :
    i.wellFormed p = true := by
  obtain ⟨hf, hp⟩ := lookup_some.mp h
  obtain ⟨r', hf', hmnemonic, -⟩ := Laws.RowAgrees.every i
  obtain rfl : r' = r := Option.some.inj (hf'.symm.trans hf)
  exact wellFormed_of_row (findRow_some hf).1 hp hmnemonic.symm

theorem wellFormed_profileFor (p : OpcodeProfile) (i : Instr) : i.wellFormed (profileFor p i.opcode) = true := by
  unfold profileFor
  split
  · exact wellFormed_of_lookup ‹_›
  · rfl

theorem fetchBytes_withFetchWord (hs : s.Inv) (nbits w : Nat) :
    (s.withFetchWord nbits w).fetchBytes = wordBytes nbits w := by
  have hread : ∀ c, (s.withFetchWord nbits w).readByte c =
      ((wordBytes nbits w)[(c - s.pc).toNat]?).getD (s.readByte c) :=
    Memory.read_writeBytes (bytes := wordBytes nbits w) (by simp [wordBytes]) hs s.pc
  have hpc : (s.withFetchWord nbits w).pc = s.pc := rfl
  have hnext : s.pc + 1 - s.pc = 1 := by bv_omega
  have hlast : s.pc + 2 - s.pc = 2 := by bv_omega
  rw [State.fetchBytes, hpc, hread, hread, hread, BitVec.sub_self, hnext, hlast]
  rfl

theorem fetchInstr_withFetchWord (hs : s.Inv) {nbits w : Nat} (h : decodeTableWord nbits w = some i) :
    (s.withFetchWord nbits w).fetchInstr = .ok i := by
  have hdecode : ∃ rest, decode .extended (wordBytes nbits w) = .ok (i, rest) := by
    revert h
    unfold decodeTableWord
    cases decode .extended (wordBytes nbits w) <;> simp [Prod.ext_iff]
  obtain ⟨rest, hdecode⟩ := hdecode
  obtain ⟨-, hbytes⟩ := decode_eq_ok_iff.mp hdecode
  have hcode : BitVec.ofNat 8 (w % 2 ^ nbits) = i.opcode := (List.cons.inj hbytes).1
  have hw := wellFormed_profileFor s.config.opcodeProfile i
  rw [← hcode] at hw
  exact fetchInstr_eq_ok_iff.mpr ⟨hw, rest, by rw [fetchBytes_withFetchWord hs, hbytes]⟩

end Sys2Proof.Machine
end

section
/-! How a step ends (R120), and the loop under a bound (R122). -/

namespace Sys2Proof.Machine

open Sys2Proof.Claims

variable {i : Instr} {s t : State}

theorem Effect.run_eq_of_ne_brk (he : Effect i s t) (hi : i ≠ .brk) : t.run = s.run := by
  cases he with
  | endProgram hbrk => exact absurd hbrk hi
  | _ => simp

theorem Effect.eq_haltSuccess (he : Effect .brk s t) : t = s.haltSuccess := by
  cases exec_of_effect he
  rfl

/-- The three ends of a step, told apart by the byte at `pc` (R120, R127, R128). -/
inductive StepEnd (s t : State) : Prop where
  | success (hbyte : s.readByte s.pc = 0#8) (hrun : t.run = .halted .success)
  | illegal (hpop : ¬ populated s (s.readByte s.pc)) (hrun : t.run = .halted (.fatal .illegalInstruction))
  | goesOn (hpop : populated s (s.readByte s.pc)) (hbyte : s.readByte s.pc ≠ 0#8) (hrun : t.run = .running)

theorem stepEnd_of_step (h : step s = .next t) : StepEnd s t := by
  obtain ⟨hr, ⟨i, hi, he⟩ | ⟨⟨e, he⟩, rfl⟩⟩ := step_effect h
  · have hbyte := opcode_of_fetchInstr hi
    by_cases hbrk : i = .brk
    · subst hbrk
      exact .success hbyte.symm (by rw [he.eq_haltSuccess]; rfl)
    · have hzero : s.readByte s.pc ≠ 0#8 := fun h0 => hbrk ((opcode_eq_zero_iff i).mp (hbyte.trans h0))
      exact .goesOn (populated_of_fetchInstr hi) hzero ((he.run_eq_of_ne_brk hbrk).trans hr)
  · refine .illegal (fun hpop => ?_) rfl
    obtain ⟨i, hi⟩ := fetchInstr_of_populated hpop
    cases he.symm.trans hi

theorem runFor_succ_of_step (h : step s = .next t) (n : Nat) : State.runFor (n + 1) s = State.runFor n t := by
  rw [State.runFor, h]

theorem runFor_halted {r : HaltReason} (hr : s.run = .halted r) (n : Nat) : State.runFor n s = s := by
  cases n with
  | zero => rfl
  | succ n => rw [State.runFor, step_halted hr]

theorem runFor_add (m n : Nat) (s : State) : State.runFor (m + n) s = State.runFor n (State.runFor m s) := by
  induction m generalizing s with
  | zero => rw [Nat.zero_add, State.runFor]
  | succ m ih =>
    cases hr : s.run with
    | running =>
      obtain ⟨t, ht⟩ := step_running hr
      rw [Nat.succ_add, runFor_succ_of_step ht, runFor_succ_of_step ht, ih]
    | halted r => simp only [runFor_halted hr]

end Sys2Proof.Machine
end

section
/-! Where `pc` stands after an instruction (R124). -/

namespace Sys2Proof.Machine

open Sys2Proof.Claims

variable {i : Instr} {s t : State}

/-- What neither asks for an address nor shifts is a one-byte form of the Implied mode (R73). -/
theorem operand_eq_implied (h : needsAddress i.mnemonic = false) (hshift : i.mnemonic ∉ [.asl, .lsr, .rol, .ror]) :
    i.operand = .implied := by
  revert h hshift
  cases i <;> simp [Instr.mnemonic, needsAddress, Instr.operand]

theorem pastOperand_of_addressless (h : i.operand.mode = .accumulator ∨ i.operand.mode = .implied) (s : State) :
    pastOperand s i = s.pc := by
  rw [pastOperand, encode_length, Operand.bytes]
  rcases h with h | h <;> rw [h] <;> exact BitVec.add_zero s.pc

/-- The opcode byte and the operand bytes are the whole length. -/
theorem pastOperand_afterOpcode (s : State) (i : Instr) :
    pastOperand s.afterOpcode i = s.pc + BitVec.ofNat 16 (encode i).length := by
  rw [pastOperand, encode, List.length_cons, Nat.add_sub_cancel, State.afterOpcode_pc, Nat.add_comm, BitVec.ofNat_add,
    BitVec.add_assoc]
  rfl

/-- No instruction without operand bytes branches or jumps. -/
theorem straight_of_addressless (h : i.operand.mode = .accumulator ∨ i.operand.mode = .implied) (p : Status) :
    i.mnemonic ≠ .jmp ∧ branchTaken p i.mnemonic = none := by
  revert h
  cases i <;> simp [Instr.mnemonic, Instr.operand, Operand.mode, branchTaken]

/-- An instruction that neither jumps nor branches leaves `pc` past its operand bytes, of which it may have none. -/
theorem Effect.pc_eq_pastOperand (he : Effect i s t) (hjmp : i.mnemonic ≠ .jmp)
    (hbranch : branchTaken s.p i.mnemonic = none) : t.pc = pastOperand s i := by
  cases he
  case branch f on b hm ho => simp [branchTaken_of_flag hm] at hbranch
  case jump w hi =>
    subst hi
    exact absurd rfl hjmp
  case shiftAccumulator op hm ho => simp [pastOperand_of_addressless (i := i) (.inl (by rw [ho]; rfl))]
  case countRegister | transfer | writeFlag =>
    have ho : i.operand = .implied := operand_eq_implied (by grind [needsAddress]) (by grind)
    simp [pastOperand_of_addressless (i := i) (.inr (by rw [ho]; rfl))]
  case endProgram hi | noOperation hi =>
    subst hi
    exact (pastOperand_of_addressless (.inr rfl) s).symm
  all_goals simp [pastOperand, encode_length]

theorem flag_of_branchTaken {p : Status} {m : Mnemonic} {taken : Bool} (h : branchTaken p m = some taken) :
    ∃ (f : Flag) (on : Bool), (f, on, m) ∈
      [(.c, false, .bcc), (.c, true, .bcs), (.z, true, .beq), (.z, false, .bne), (.n, true, .bmi),
        (.n, false, .bpl)] := by
  cases m <;> simp [branchTaken] at h ⊢

/-- A branch has an offset byte, and its effect is on `pc` alone (R101). -/
theorem exec_of_branchTaken {taken : Bool} (h : branchTaken s.p i.mnemonic = some taken) :
    ∃ b, i.operand = .immediate b ∧
      exec i s = .next (s.setPc (if taken then branchTarget s (s.pc + 1) b else s.pc + 1)) := by
  obtain ⟨f, on, hm⟩ := flag_of_branchTaken h
  obtain ⟨b, ho⟩ := immediate_of_branch (i := i) (by grind)
  obtain rfl : (s.p.test f == on) = taken := Option.some.inj ((branchTaken_of_flag hm s.p).symm.trans h)
  exact ⟨b, ho, exec_branch hm ho s⟩

end Sys2Proof.Machine
end

section
/-! Where the parameters make no difference to an address or to an offset (R69, R101). -/

namespace Sys2Proof.Machine

variable {s : State} {cfg : Config}

theorem resolve_withConfig_of_ne {o : Operand} (ho : o ≠ .indirectY 0xFF) (s : State) (cfg : Config) :
    resolve o (s.withConfig cfg) = resolve o s := by
  cases o with
  | indirectY b =>
    refine resolve_indirectY_withConfig (fun hb => ho ?_) s cfg
    exact congrArg Operand.indirectY (BitVec.eq_of_toNat_eq hb)
  | _ => rfl

/-- Below 0x80 the sign extension of an offset is its zero extension. -/
theorem State.branchOffset_withConfig_of_lt {b : Byte} (hb : b.toNat < 128) (s : State) (cfg : Config) :
    (s.withConfig cfg).branchOffset b = s.branchOffset b := by
  simp [State.branchOffset_eq_ofNat, Nat.not_le.mpr hb]

end Sys2Proof.Machine
end

section
/-! What the host's commands other than `reset()` change in a halted core (R121, R143). -/

namespace Sys2Proof.Machine

variable {s t u : State}

/-- The second state is the first but for memory. -/
def SameButMemory (s t : State) : Prop := t = { s with mem := t.mem }

theorem SameButMemory.trans (hst : SameButMemory s t) (htu : SameButMemory t u) : SameButMemory s u := by
  unfold SameButMemory at *
  rw [htu, hst]

theorem sameButMemory_writeSlice {start : Word} {bytes : List Byte} (h : s.writeSlice start bytes = .next t) :
    SameButMemory s t := by
  unfold State.writeSlice at h
  split at h <;> cases h
  rfl

theorem sameButMemory_armVector (s : State) : SameButMemory s s.armVector := by
  unfold State.armVector
  split <;> rfl

theorem sameButMemory_loadProgram {bytes : List Byte} (h : s.loadProgram bytes = .next t) : SameButMemory s t := by
  unfold State.loadProgram at h
  split at h <;> cases h
  exact (sameButMemory_writeSlice ‹_›).trans (sameButMemory_armVector _)

theorem sameButMemory_command {r : HaltReason} (hr : s.run = .halted r) {c : HostCommand} (hc : c ≠ .reset)
    (h : s.command c = .next t) : SameButMemory s t := by
  cases c with
  | step => cases (step_halted hr).symm.trans h
  | reset => exact absurd rfl hc
  | write a b => cases h; rfl
  | write16 a w => cases h; rfl
  | writeSlice start bytes => exact sameButMemory_writeSlice h
  | loadProgram bytes => exact sameButMemory_loadProgram h

end Sys2Proof.Machine
end

section
/-! The statements of 44_execution_loop.md. -/

namespace Sys2Proof.Proofs

open Sys2Proof.Machine Sys2Proof.Claims

/-- Settles O9: a fetched instruction ends the run only as BRK, whose byte is 0x00, and an absent byte ends it as
illegal. -/
theorem runningStepHasThreeOutcomes : Obligations.RunningStepHasThreeOutcomes := by
  intro s hr
  obtain ⟨t, ht⟩ := step_running hr
  refine ⟨t, ht, ?_⟩
  cases stepEnd_of_step ht with
  | success hbyte hrun => simp [State.cleanEnd, State.fatalEnd, hrun, hbyte, populated_zero]
  | illegal hpop hrun =>
    have hbyte : s.readByte s.pc ≠ 0#8 := fun h => hpop (h ▸ populated_zero s)
    simp [State.cleanEnd, State.fatalEnd, hrun, hbyte, hpop]
  | goesOn hpop hbyte hrun => simp [State.cleanEnd, State.fatalEnd, hrun, hbyte, hpop]

/-- Settles O10: a straight instruction leaves `pc` past its own bytes, a branch and JMP where their effects put it. -/
theorem pcAfterOneStep : Obligations.PcAfterOneStep := by
  refine ⟨fun s hr hpop => ⟨_, step_of_not_populated hr hpop, rfl⟩, fun s i hr hw hstands => ?_⟩
  obtain ⟨t, ht, he⟩ := exec_effect i s.afterOpcode
  have hstraight := he.pc_eq_pastOperand
  refine ⟨t, (step_of_standsAt hr hw hstands).trans ht, fun hmode => ?addressless, fun _ _ hjmp hnone => ?straight,
    fun hnot => ?notTaken, fun b htaken ho => ?taken, ?jump⟩
  case addressless =>
    obtain ⟨hjmp, hnone⟩ := straight_of_addressless hmode s.p
    exact (hstraight hjmp hnone).trans (pastOperand_of_addressless hmode _)
  case straight => exact (hstraight hjmp hnone).trans (pastOperand_afterOpcode s i)
  case notTaken =>
    obtain ⟨b, -, hb⟩ := exec_of_branchTaken (s := s.afterOpcode) hnot
    cases ht.symm.trans hb
    exact BitVec.add_assoc s.pc 1 1
  case taken =>
    obtain ⟨b', ho', hb⟩ := exec_of_branchTaken (s := s.afterOpcode) htaken
    cases ho.symm.trans ho'
    cases ht.symm.trans hb
    exact congrArg (branchTarget s · b) (BitVec.add_assoc s.pc 1 1)
  case jump =>
    rintro w rfl
    cases ht
    rfl

/-- Settles O11: a bounded run takes its first step and then runs the rest, or has ended. -/
theorem boundedRunsCompose : Obligations.BoundedRunsCompose := by
  refine ⟨fun _ => rfl, fun n _ _ h => runFor_succ_of_step h n, runFor_add, fun n s hs => ?_⟩
  cases hr : s.run with
  | running => exact absurd hr hs
  | halted r => exact runFor_halted hr n

/-- Settles O13: the placed bytes are read back by the fetch, under a profile that populates their opcode byte. -/
theorem placedWordRunsNext : Obligations.PlacedWordRunsNext :=
  fun _ _ _ _ hs h => step_fetched rfl (fetchInstr_withFetchWord hs h)

/-- Settles O39: an effect reads the parameters through its address and its branch offset, and these differ only at
the places the statement leaves out. -/
theorem parametersMatterOnlyWhereStated : Obligations.ParametersMatterOnlyWhereStated := by
  intro i s t cfg h hwrap hsigned
  refine exec_of_effect ((effect_of_exec h).withConfig (cfg := cfg) ?address fun b ho htaken => ?offset)
  case address =>
    rcases hwrap with hwrap | ho
    · exact resolve_withConfig hwrap i.operand
    · exact resolve_withConfig_of_ne ho s cfg
  case offset =>
    rcases hsigned with hsigned | hnot | hsmall
    · exact State.branchOffset_withConfig hsigned b
    · exact absurd htaken hnot
    · exact State.branchOffset_withConfig_of_lt (hsmall b ho) s cfg

/-- Settles O6: bytes that stand at `pc` are what the loop fetches. -/
theorem stepRunsDecodedInstruction : Obligations.StepRunsDecodedInstruction :=
  fun _ _ hr hw h => step_of_standsAt hr hw h

/-- Settles O8: a halted core's step is a fault, so of the commands only the host's writes answer a state. -/
theorem haltedCoreHasNoStep : Obligations.HaltedCoreHasNoStep :=
  fun _ _ hr => ⟨⟨_, step_halted hr⟩, fun _ _ hc h => sameButMemory_command hr hc h, rfl⟩

end Sys2Proof.Proofs
end

/-! ## Exceptions (60_exceptions.md R125 to R137) -/

section
/-! The statement of 60_exceptions.md. -/

namespace Sys2Proof.Proofs

open Sys2Proof.Machine Sys2Proof.Claims

/-- Settles O7: what decodes at `pc` is populated, so a byte that is not takes the loop's illegal-opcode branch. -/
theorem illegalOpcodeHaltsFatal : Obligations.IllegalOpcodeHaltsFatal :=
  fun _ hr hpop => step_of_not_populated hr hpop

end Sys2Proof.Proofs
end

/-! ## Reset, the host and hazards (70_reset_and_hazards.md R138 to R147) -/

section
/-! Memory at construction, and the word that `reset()` loads (R138, R139). -/

namespace Sys2Proof.Machine

theorem Memory.wf_ofImage (image : Word → Byte) : Memory.wf (Memory.ofImage image) = true :=
  Memory.wfFrom_imageFrom image 65536 0 le_rfl

theorem Memory.read_ofImage (image : Word → Byte) (c : Word) : Memory.read (Memory.ofImage image) c = image c := by
  have hread : Memory.read (Memory.ofImage image) c = image (BitVec.ofNat 16 c.toNat) :=
    Memory.readCell_imageFrom image 65536 0 c.toNat le_rfl (Nat.zero_le _) c.isLt
  rw [hread, BitVec.ofNat_toNat, BitVec.setWidth_eq]

theorem State.read16_eq_ofNat_wordAt (s : State) (a : Word) :
    s.read16 a = BitVec.ofNat 16 (Claims.wordAt s a (a + 1)) := by
  rw [← State.read16_toNat, BitVec.ofNat_toNat, BitVec.setWidth_eq]

end Sys2Proof.Machine
end

section
/-! The two halves of `load_program`: the copy, and the reset vector (R140, R141). -/

namespace Sys2Proof.Machine

variable {s t u : State} {bytes : List Byte}

theorem loadProgram_of_writeSlice (h : s.writeSlice programOrigin bytes = .next t) :
    s.loadProgram bytes = .next t.armVector := by
  rw [State.loadProgram, h]

theorem loadProgram_refused {r : Refusal} (h : s.writeSlice programOrigin bytes = .refused r) :
    s.loadProgram bytes = .refused r := by
  rw [State.loadProgram, h]

/-- A loaded program was copied, and then the vector was armed. -/
theorem writeSlice_of_loadProgram (h : s.loadProgram bytes = .next u) :
    ∃ t, s.writeSlice programOrigin bytes = .next t ∧ u = t.armVector := by
  unfold State.loadProgram at h
  split at h <;> cases h
  exact ⟨_, ‹_›, rfl⟩

theorem armVector_of_resetCapable (h : s.config.resetCapable = true) :
    s.armVector = s.write16 resetVector programOrigin :=
  if_pos h

theorem armVector_of_not_resetCapable (h : ¬ s.config.resetCapable = true) : s.armVector = s :=
  if_neg h

/-- Arming puts the origin's two bytes into the vector, in reset-capable configurations alone. -/
theorem armVector_readByte (hs : s.Inv) (c : Word) :
    s.armVector.readByte c =
      if s.config.resetCapable = true ∧ c = 0xFFFC then 0x00
      else if s.config.resetCapable = true ∧ c = 0xFFFD then 0x80
      else s.readByte c := by
  by_cases hcap : s.config.resetCapable = true
  · rw [armVector_of_resetCapable hcap]
    simp only [hcap, true_and]
    split_ifs with hlow hhigh
    · subst hlow
      exact Memory.read_write16_low hs resetVector programOrigin
    · subst hhigh
      exact Memory.read_write16_high hs resetVector programOrigin
    · exact Memory.read_write16_other hlow hhigh s.mem programOrigin
  · simp [armVector_of_not_resetCapable hcap, hcap]

/-- `reset()` after arming resumes at the program origin (R140). -/
theorem armVector_hostReset_pc (hs : s.Inv) (hcap : s.config.resetCapable = true) :
    s.armVector.hostReset.pc = programOrigin := by
  rw [armVector_of_resetCapable hcap]
  exact Memory.read16_write16 hs resetVector programOrigin

end Sys2Proof.Machine
end

section
/-! What every host command keeps, every sequence of them keeps (R143): the canonical form and the parameters. -/

namespace Sys2Proof.Machine

variable {s t : State} {bytes : List Byte}

theorem ReachableFrom.invariant {P : State → Prop}
    (hcommand : ∀ (c : HostCommand) (t u : State), P t → t.command c = .next u → P u) (hs : P s)
    (h : ReachableFrom s t) : P t := by
  induction h with
  | here => exact hs
  | command c _ hc ih => exact hcommand c _ _ ih hc

/-! ### The parameters (R7) -/

theorem SameButMemory.config_eq (h : SameButMemory s t) : t.config = s.config := by
  unfold SameButMemory at h
  rw [h]

theorem step_config_eq (h : step s = .next t) : t.config = s.config := by
  obtain ⟨-, ⟨i, -, he⟩ | ⟨-, rfl⟩⟩ := step_effect h
  · exact he.config_eq
  · rfl

theorem command_config_eq {c : HostCommand} (h : s.command c = .next t) : t.config = s.config := by
  cases c with
  | step => exact step_config_eq h
  | reset | write | write16 => cases h; rfl
  | writeSlice start bytes => exact (sameButMemory_writeSlice h).config_eq
  | loadProgram bytes => exact (sameButMemory_loadProgram h).config_eq

/-! ### The canonical form -/

theorem writeSlice_keeps_inv {start : Word} (hs : s.Inv) (h : s.writeSlice start bytes = .next t) : t.Inv := by
  unfold State.writeSlice at h
  split at h <;> cases h
  exact Memory.wf_writeBytes bytes s.mem start hs

theorem armVector_keeps_inv (hs : s.Inv) : s.armVector.Inv := by
  by_cases hcap : s.config.resetCapable = true
  · rw [armVector_of_resetCapable hcap]
    exact Memory.wf_write16 hs resetVector programOrigin
  · rwa [armVector_of_not_resetCapable hcap]

theorem command_keeps_inv {c : HostCommand} (hs : s.Inv) (h : s.command c = .next t) : t.Inv := by
  cases c with
  | step => exact Proofs.stepKeepsMemoryCanonical s t hs h
  | reset => cases h; exact hs
  | write a b => cases h; exact Memory.wf_write hs a b
  | write16 a w => cases h; exact Memory.wf_write16 hs a w
  | writeSlice start bytes => exact writeSlice_keeps_inv hs h
  | loadProgram bytes =>
    obtain ⟨u, hcopy, rfl⟩ := writeSlice_of_loadProgram h
    exact armVector_keeps_inv (writeSlice_keeps_inv hs hcopy)

/-- A core in canonical form with the parameters `cfg`. -/
def CanonicalWith (cfg : Config) (s : State) : Prop := s.Inv ∧ s.config = cfg

theorem command_keeps_canonicalWith {cfg : Config} (c : HostCommand) (s t : State) (hs : CanonicalWith cfg s)
    (h : s.command c = .next t) : CanonicalWith cfg t := by
  obtain ⟨hinv, hcfg⟩ := hs
  exact ⟨command_keeps_inv hinv h, (command_config_eq h).trans hcfg⟩

end Sys2Proof.Machine
end

section
/-! The statements of 70_reset_and_hazards.md. -/

namespace Sys2Proof.Proofs

open Sys2Proof.Machine Sys2Proof.Claims

/-- Settles O24, by the invariant that the state is canonical and has the first state's parameters. -/
theorem reachableStatesKeepInvariantAndParameters : Obligations.ReachableStatesKeepInvariantAndParameters := by
  intro s t hs h
  have ht : CanonicalWith s.config t := h.invariant command_keeps_canonicalWith ⟨hs, rfl⟩
  exact ht

/-- Settles O27: each field is the host's own, and the image's list is canonical and reads back as the image. -/
theorem constructionTakesTheHostsValues : Obligations.ConstructionTakesTheHostsValues :=
  fun _ _ _ _ _ _ image =>
    ⟨rfl, rfl, rfl, rfl, rfl, rfl, rfl, Memory.wf_ofImage image, Memory.read_ofImage image⟩

/-- Settles O31: the copy read back byte by byte, under the armed vector. -/
theorem programLoad : Obligations.ProgramLoad := by
  intro s bytes hs
  have horigin : programOrigin.toNat = 0x8000 := rfl
  obtain ⟨hcopy, hrefuse⟩ := sliceWrite s programOrigin bytes hs
  rw [horigin] at hcopy hrefuse
  constructor
  · intro hfit
    obtain ⟨t, ht, -, hread⟩ := hcopy (by omega)
    have hload : s.loadProgram bytes = .next t.armVector := loadProgram_of_writeSlice ht
    have hinv : t.Inv := writeSlice_keeps_inv hs ht
    have hcfg : t.config = s.config := (sameButMemory_writeSlice ht).config_eq
    refine ⟨t.armVector, hload, sameButMemory_loadProgram hload, fun hcap => ?resumes, fun c => ?bytes⟩
    case resumes => exact armVector_hostReset_pc hinv (hcfg ▸ hcap)
    case bytes => rw [armVector_readByte hinv, hcfg, hread]
  · intro hlong
    obtain ⟨r, hr⟩ := hrefuse (by omega)
    exact ⟨r, loadProgram_refused hr⟩

/-- Settles O23: a list of no cells is canonical. -/
theorem resetMemoryCanonical : Obligations.ResetMemoryCanonical :=
  Memory.wf_nil

/-- Settles O28: the word read from the vector is the little-endian word of its two bytes. -/
theorem resetOperation : Obligations.ResetOperation := by
  intro s
  have hpc : s.read16 0xFFFC = BitVec.ofNat 16 (wordAt s 0xFFFC 0xFFFD) := s.read16_eq_ofNat_wordAt 0xFFFC
  rw [State.hostReset, hpc]
  rfl

/-- Settles O29: a list of no cells reads 0x00 at every address, the vector's two among them. -/
theorem resetStateIsResetOfEmptyMemory : Obligations.ResetStateIsResetOfEmptyMemory :=
  ⟨rfl, rfl, Memory.read_nil⟩

end Sys2Proof.Proofs
end
